-- ==== Sys2Proof/Word.lean ====
section
/-! DEFINITION. The word types of the moom inflate block (MIB): bytes, registers and addresses (spec R6, R20, R60). -/

namespace Sys2Proof

/-- One byte of the memory M (R8, R66). -/
abbrev Byte := BitVec 8

/-- One 32-bit register of the host interface (R20). -/
abbrev Word := BitVec 32

/-- One byte address of M (R60). -/
abbrev Addr := BitVec 32

end Sys2Proof
end

