-- ==== Sys2Proof/Config.lean ====
section
/-! DEFINITION. The fixed parameters of the block (R6), what an unlisted byte of M reads as, and the free values: what the
spec leaves unspecified (R306, `93_implementation_defined.md` U1 to U5), as one constant with no body. -/

namespace Sys2Proof

/-- MAXBITS, the longest Huffman code (R6). -/
def Config.maxBits : Nat := 15

/-- Capacity of the literal/length table LIT (R6, R40). -/
def Config.litCap : Nat := 288

/-- Capacity of the distance table DIST (R6, R40). -/
def Config.distCap : Nat := 32

/-- Capacity of the code-length table CLEN (R6, R40). -/
def Config.clenCap : Nat := 19

/-- Capacity of the code-length array LENS (R6, R41). -/
def Config.lensCap : Nat := 320

/-- What a byte of M that no cell lists reads as. The contents of M are the host's (R8, U20); DESIGN CHOICE 0, unsafe
(notes/assumptions/1.md): every statement is about every listed content, so none rests on it. -/
def Config.unlistedByte : Byte := 0

/-- What a free value stands for: one name for each piece of state that R306, R33 (c) or U5 leaves unspecified. -/
inductive FreeName where
  | outByte | outLen | inPos | bitCnt | bitBuf | result
  | bfinal | btype | storedRem | hlit | hdist | hclen | lensIdx | lens | clLens
  | litCount | litSymbol | litN | distCount | distSymbol | distN | clenCount | clenSymbol | clenN
  | sfbRow | sfbFt | busyRead | symbolRead | errByte | errBit
deriving DecidableEq, Repr

/-- A free value of width `w`: the model fixes nothing about it. `tick` is the number of the step that draws it and `i` the
index of the entry it fills, so two draws are never the same value by definition (notes/assumptions/2.md). -/
opaque Config.free (w : Nat) (what : FreeName) (tick : Nat) (i : Nat) : BitVec w

end Sys2Proof
end

