-- ==== Sys2Proof/Syntax.lean ====
section
/-! DEFINITION. The instructions of MIB: one constructor for every row of spec/opcode_table.json, and the shape of a Huffman
table. An operand that the encoding admits only in part is checked in WellFormed.lean. -/

namespace Sys2Proof

/-- A Huffman table (R40): `counts` is counts[0..15], `symbols` is symbols[0..cap-1], `n` the number of symbols the table
was built over. -/
structure Table where
  counts  : List (BitVec 16)
  symbols : List (BitVec 9)
  n       : BitVec 9
deriving DecidableEq, Repr

/-- The formats of the encodings (R80 to R88): what the decoder is asked to read. `blockType` is the header word read through
the BTYPE map (R90), `distance` the distance part of a length code (R164), `filterRow` the FTYPE of the running FILTER
command (R248). -/
inductive Elem where
  | blockHeader | storedHeader | storedByte | dynHeader | dynClLengths | clSymbol | litLen | distance | blockType
  | defilterRow | command | filterRow
deriving DecidableEq, Repr

/-- The instructions: stream elements, symbols, filter types and host commands (R80, R90 to R95). -/
inductive Instr where
  /-- BLOCK_HEADER (R131): BFINAL, BTYPE. -/
  | blockHeader (bfinal : BitVec 1) (btype : BitVec 2)
  /-- STORED_HEADER (R140): LEN, NLEN. -/
  | storedHeader (len nlen : BitVec 16)
  /-- STORED_BYTE (R141). -/
  | storedByte (b : Byte)
  /-- DYN_HEADER (R146): the fields HLIT - 257, HDIST - 1, HCLEN - 4. -/
  | dynHeader (hlit hdist : BitVec 5) (hclen : BitVec 4)
  /-- DYN_CL_LENGTHS (R147): HCLEN lengths in the order CL_ORDER. -/
  | dynClLengths (lens : List (BitVec 3))
  /-- BLK_STORED (R132). -/
  | blkStored (bfinal : BitVec 1)
  /-- BLK_FIXED (R133). -/
  | blkFixed (bfinal : BitVec 1)
  /-- BLK_DYNAMIC (R134). -/
  | blkDynamic (bfinal : BitVec 1)
  /-- BLK_RESERVED (R135). -/
  | blkReserved (bfinal : BitVec 1)
  /-- LIT (R160). -/
  | lit (b : Byte)
  /-- EOB (R161). -/
  | eob
  /-- LEN257 to LEN285 (R170 to R198), each with its length extra bits. -/
  | len257
  | len258
  | len259
  | len260
  | len261
  | len262
  | len263
  | len264
  | len265 (extra : BitVec 1)
  | len266 (extra : BitVec 1)
  | len267 (extra : BitVec 1)
  | len268 (extra : BitVec 1)
  | len269 (extra : BitVec 2)
  | len270 (extra : BitVec 2)
  | len271 (extra : BitVec 2)
  | len272 (extra : BitVec 2)
  | len273 (extra : BitVec 3)
  | len274 (extra : BitVec 3)
  | len275 (extra : BitVec 3)
  | len276 (extra : BitVec 3)
  | len277 (extra : BitVec 4)
  | len278 (extra : BitVec 4)
  | len279 (extra : BitVec 4)
  | len280 (extra : BitVec 4)
  | len281 (extra : BitVec 5)
  | len282 (extra : BitVec 5)
  | len283 (extra : BitVec 5)
  | len284 (extra : BitVec 5)
  | len285
  /-- LL_RESERVED286 (R163). -/
  | llReserved286
  /-- LL_RESERVED287 (R163). -/
  | llReserved287
  /-- DIST0 to DIST29 (R200 to R229), each with its distance extra bits. -/
  | dist0
  | dist1
  | dist2
  | dist3
  | dist4 (extra : BitVec 1)
  | dist5 (extra : BitVec 1)
  | dist6 (extra : BitVec 2)
  | dist7 (extra : BitVec 2)
  | dist8 (extra : BitVec 3)
  | dist9 (extra : BitVec 3)
  | dist10 (extra : BitVec 4)
  | dist11 (extra : BitVec 4)
  | dist12 (extra : BitVec 5)
  | dist13 (extra : BitVec 5)
  | dist14 (extra : BitVec 6)
  | dist15 (extra : BitVec 6)
  | dist16 (extra : BitVec 7)
  | dist17 (extra : BitVec 7)
  | dist18 (extra : BitVec 8)
  | dist19 (extra : BitVec 8)
  | dist20 (extra : BitVec 9)
  | dist21 (extra : BitVec 9)
  | dist22 (extra : BitVec 10)
  | dist23 (extra : BitVec 10)
  | dist24 (extra : BitVec 11)
  | dist25 (extra : BitVec 11)
  | dist26 (extra : BitVec 12)
  | dist27 (extra : BitVec 12)
  | dist28 (extra : BitVec 13)
  | dist29 (extra : BitVec 13)
  /-- DIST_RESERVED30 (R164). -/
  | distReserved30
  /-- DIST_RESERVED31 (R164). -/
  | distReserved31
  /-- CL_LEN (R150): a code length 0 to 15. -/
  | clLen (length : BitVec 4)
  /-- CL_REPEAT_PREV (R151), with its 2 extra bits. -/
  | clRepeatPrev (extra : BitVec 2)
  /-- CL_REPEAT_ZERO_3 (R152), with its 3 extra bits. -/
  | clRepeatZero3 (extra : BitVec 3)
  /-- CL_REPEAT_ZERO_11 (R153), with its 7 extra bits. -/
  | clRepeatZero11 (extra : BitVec 7)
  /-- FT_NONE (R241): a DEFILTER row of filter type 0. -/
  | ftNone
  /-- FT_SUB (R242). -/
  | ftSub
  /-- FT_UP (R243). -/
  | ftUp
  /-- FT_AVG (R244). -/
  | ftAvg
  /-- FT_PAETH (R245). -/
  | ftPaeth
  /-- FT_RESERVED (R247): a filter type byte 5 to 255. -/
  | ftReserved (t : Byte)
  /-- NOP (R272). -/
  | nop
  /-- INFLATE (R273). -/
  | inflate
  /-- DEFILTER (R274). -/
  | defilter
  /-- FILTER (R275), with FTYPE 0 to 4. -/
  | filter (ftype : BitVec 3)
  /-- CRC_RESET (R276, R262). -/
  | crcReset
  /-- CRC_UPDATE (R277, R263). -/
  | crcUpdate
  /-- CRC_CHECK (R278, R265). -/
  | crcCheck
  /-- HUFF_BUILD (R283), with TBL. -/
  | huffBuild (tbl : BitVec 2)
  /-- HUFF_DECODE (R284), with TBL. -/
  | huffDecode (tbl : BitVec 2)
  /-- BITS_READ (R285), with NBITS. -/
  | bitsRead (nbits : BitVec 6)
  /-- BITS_ALIGN (R286). -/
  | bitsAlign
  /-- BITS_RESET (R287). -/
  | bitsReset
  /-- CMD_RESERVED, OP 0xC (R288). -/
  | cmdReservedC
  /-- CMD_RESERVED, OP 0xD (R288). -/
  | cmdReservedD
  /-- CMD_RESERVED, OP 0xE (R288). -/
  | cmdReservedE
  /-- CLEAR (R289). -/
  | clear
  /-- FILTER rows of FTYPE 0 to 4 (R248 with R249 to R253). -/
  | filterFt0
  | filterFt1
  | filterFt2
  | filterFt3
  | filterFt4
  /-- FILTER with FTYPE 5 to 7 (R254). -/
  | filterFt5
  | filterFt6
  | filterFt7
deriving DecidableEq, Repr

end Sys2Proof
end

