-- ==== Sys2Proof/WellFormed.lean ====
section
/-! DEFINITION. Which terms of `Instr` an encoding exists for. The operand types rule out the rest. -/

namespace Sys2Proof

/-- The checks beyond the operand types: HCLEN is 4 to 19 (R83), FT_RESERVED is 5 to 255 (R94), FILTER runs with FTYPE 0 to 4
(R254: 5 to 7 are instructions of their own). -/
def Instr.wf : Instr → Bool
  | .dynClLengths lens => decide (4 ≤ lens.length) && decide (lens.length ≤ 19)
  | .ftReserved t => decide (5 ≤ t.toNat)
  | .filter ftype => decide (ftype.toNat ≤ 4)
  | _ => true

end Sys2Proof
end

