-- ==== Sys2Proof/Decode.lean ====
section
/-! DEFINITION. The decoder of MIB, total on any bits, and the encoder. One decoder serves a plain list of bits and the
machine's bit cursor: it asks a `BitSource` for the next bits (R101), and a list of bits and the cursor are two sources. -/

namespace Sys2Proof

/-! ## Bit strings -/

/-- The `n` low bits of `v`, bit 0 first: the stream order of an integer field (R68). -/
def fieldBits : Nat → Nat → List Bool
  | 0, _ => []
  | n + 1, v => (v % 2 == 1) :: fieldBits n (v / 2)

/-- The value whose bits, bit 0 first, are the list (R68). -/
def bitsValue : List Bool → Nat
  | [] => 0
  | b :: bs => b.toNat + 2 * bitsValue bs

/-- A Huffman code of `n` bits in stream order: most significant bit first (R69, R84). -/
def codeBits (n v : Nat) : List Bool := (fieldBits n v).reverse

/-! ## What a decoder reads from -/

/-- Why a bit string is no instruction: IN is exhausted (TRUNCATED, R101), no code matches in 15 bits (HUFF_NO_MATCH, R114),
or a code-length symbol is above 18, which a table built over 19 symbols never gives (R93). -/
inductive DecodeError where
  | truncated | huffNoMatch | noSuchSymbol
deriving DecidableEq, Repr

/-- The two operations a decoder needs: ReadBits (R101), none when the input is exhausted, and AlignToByte (R102). -/
structure BitSource (σ : Type) where
  read  : Nat → σ → Option (Nat × σ)
  align : σ → σ

/-- A bit string and the stream position of its first bit. -/
structure BitList where
  pos  : Nat
  bits : List Bool
deriving DecidableEq, Repr

/-- ReadBits on a bit string (R104): the first bit read is bit 0 of the value. -/
def BitList.read (n : Nat) (x : BitList) : Option (Nat × BitList) :=
  if x.bits.length < n then none
  else some (bitsValue (x.bits.take n), { pos := x.pos + n, bits := x.bits.drop n })

/-- The number of bits from position `pos` to the next byte boundary (R102). -/
def padLength (pos : Nat) : Nat := (8 - pos % 8) % 8

/-- AlignToByte on a bit string (R102, R104). -/
def BitList.align (x : BitList) : BitList :=
  { pos := x.pos + padLength x.pos, bits := x.bits.drop (padLength x.pos) }

/-- A bit string as a source. -/
def bitListSource : BitSource BitList := { read := BitList.read, align := BitList.align }

variable {σ : Type}

/-- One integer field of `n` bits (R89). -/
def readField (src : BitSource σ) (n : Nat) (x : σ) : Except DecodeError (BitVec n × σ) :=
  match src.read n x with
  | none => .error .truncated
  | some (v, x') => .ok (BitVec.ofNat n v, x')

/-- The extra bits of a symbol: a field of width 0 reads nothing and is 0 (R89). -/
def readExtra (src : BitSource σ) (n : Nat) (x : σ) : Except DecodeError (Nat × σ) :=
  if n = 0 then .ok (0, x)
  else
    match src.read n x with
    | none => .error .truncated
    | some (v, x') => .ok (v, x')

/-- `n` fields of 3 bits: the code-length-code lengths (R147). -/
def readLengths (src : BitSource σ) : Nat → σ → Except DecodeError (List (BitVec 3) × σ)
  | 0, x => .ok ([], x)
  | n + 1, x =>
    match readField src 3 x with
    | .error e => .error e
    | .ok (l, x1) =>
      match readLengths src n x1 with
      | .error e => .error e
      | .ok (ls, x2) => .ok (l :: ls, x2)

/-! ## The decode walker (R114) -/

/-- symbols[i], and a free value where the table holds no entry i (never for a table Build wrote, R115;
notes/assumptions/16.md). `draw` numbers the free value. -/
def Table.symbolAt (T : Table) (draw i : Nat) : BitVec 9 :=
  T.symbols[i]?.getD (Config.free 9 .symbolRead draw i)

/-- counts[L] (R40). -/
def Table.count (T : Table) (L : Nat) : Nat := (T.counts.getD L 0).toNat

/-- The loop of DecodeSym (R114) from length `L` on, `fuel` lengths at most. -/
def walk (src : BitSource σ) (T : Table) (draw : Nat) :
    (fuel L code first index : Nat) → σ → Except DecodeError (BitVec 9 × σ)
  | 0, _, _, _, _, _ => .error .huffNoMatch
  | fuel + 1, L, code, first, index, x =>
    match src.read 1 x with
    | none => .error .truncated
    | some (b, x') =>
      if code + b < first + T.count L then .ok (T.symbolAt draw (index + (code + b - first)), x')
      else walk src T draw fuel (L + 1) (2 * (code + b)) (2 * (first + T.count L)) (index + T.count L) x'

/-- DecodeSym(T) (R114): every walk goes to 15 bits before it fails (D11). -/
def decodeSym (src : BitSource σ) (T : Table) (draw : Nat) (x : σ) : Except DecodeError (BitVec 9 × σ) :=
  walk src T draw Config.maxBits 1 0 0 0 x

/-! ## The dispatch maps (R90 to R95) -/

/-- LEXT (ROM, R42): the extra bits of length codes 257 to 285 (R170 to R198). -/
def lextTable : List Nat :=
  [0, 0, 0, 0, 0, 0, 0, 0, 1, 1, 1, 1, 2, 2, 2, 2, 3, 3, 3, 3, 4, 4, 4, 4, 5, 5, 5, 5, 0]

/-- LEXT(sym). -/
def lext (sym : Nat) : Nat := lextTable.getD (sym - 257) 0

/-- DEXT (ROM, R42): the extra bits of distance codes 0 to 29 (R200 to R229). -/
def dextTable : List Nat :=
  [0, 0, 0, 0, 1, 1, 2, 2, 3, 3, 4, 4, 5, 5, 6, 6, 7, 7, 8, 8, 9, 9, 10, 10, 11, 11, 12, 12, 13, 13]

/-- DEXT(d). -/
def dext (d : Nat) : Nat := dextTable.getD d 0

/-- The BTYPE map (R90). -/
def decodeBlockType (bfinal : BitVec 1) (btype : BitVec 2) : Instr :=
  match btype.toNat with
  | 0 => .blkStored bfinal
  | 1 => .blkFixed bfinal
  | 2 => .blkDynamic bfinal
  | _ => .blkReserved bfinal

/-- The literal/length map (R91) with the length extra value `e`. A symbol above 287 is reserved as 287 is: R166 takes every
symbol above 285 as LL_RESERVED (notes/assumptions/18.md). -/
def litLenInstr (sym e : Nat) : Instr :=
  if sym ≤ 255 then .lit (BitVec.ofNat 8 sym)
  else
    match sym with
    | 256 => .eob
    | 257 => .len257
    | 258 => .len258
    | 259 => .len259
    | 260 => .len260
    | 261 => .len261
    | 262 => .len262
    | 263 => .len263
    | 264 => .len264
    | 265 => .len265 (BitVec.ofNat 1 e)
    | 266 => .len266 (BitVec.ofNat 1 e)
    | 267 => .len267 (BitVec.ofNat 1 e)
    | 268 => .len268 (BitVec.ofNat 1 e)
    | 269 => .len269 (BitVec.ofNat 2 e)
    | 270 => .len270 (BitVec.ofNat 2 e)
    | 271 => .len271 (BitVec.ofNat 2 e)
    | 272 => .len272 (BitVec.ofNat 2 e)
    | 273 => .len273 (BitVec.ofNat 3 e)
    | 274 => .len274 (BitVec.ofNat 3 e)
    | 275 => .len275 (BitVec.ofNat 3 e)
    | 276 => .len276 (BitVec.ofNat 3 e)
    | 277 => .len277 (BitVec.ofNat 4 e)
    | 278 => .len278 (BitVec.ofNat 4 e)
    | 279 => .len279 (BitVec.ofNat 4 e)
    | 280 => .len280 (BitVec.ofNat 4 e)
    | 281 => .len281 (BitVec.ofNat 5 e)
    | 282 => .len282 (BitVec.ofNat 5 e)
    | 283 => .len283 (BitVec.ofNat 5 e)
    | 284 => .len284 (BitVec.ofNat 5 e)
    | 285 => .len285
    | 286 => .llReserved286
    | _ => .llReserved287

/-- The distance map (R92) with the distance extra value `e`. A symbol above 31 is reserved as 31 is: R164 takes every symbol
from 30 on as reserved (notes/assumptions/18.md). -/
def distInstr (d e : Nat) : Instr :=
  match d with
  | 0 => .dist0
  | 1 => .dist1
  | 2 => .dist2
  | 3 => .dist3
  | 4 => .dist4 (BitVec.ofNat 1 e)
  | 5 => .dist5 (BitVec.ofNat 1 e)
  | 6 => .dist6 (BitVec.ofNat 2 e)
  | 7 => .dist7 (BitVec.ofNat 2 e)
  | 8 => .dist8 (BitVec.ofNat 3 e)
  | 9 => .dist9 (BitVec.ofNat 3 e)
  | 10 => .dist10 (BitVec.ofNat 4 e)
  | 11 => .dist11 (BitVec.ofNat 4 e)
  | 12 => .dist12 (BitVec.ofNat 5 e)
  | 13 => .dist13 (BitVec.ofNat 5 e)
  | 14 => .dist14 (BitVec.ofNat 6 e)
  | 15 => .dist15 (BitVec.ofNat 6 e)
  | 16 => .dist16 (BitVec.ofNat 7 e)
  | 17 => .dist17 (BitVec.ofNat 7 e)
  | 18 => .dist18 (BitVec.ofNat 8 e)
  | 19 => .dist19 (BitVec.ofNat 8 e)
  | 20 => .dist20 (BitVec.ofNat 9 e)
  | 21 => .dist21 (BitVec.ofNat 9 e)
  | 22 => .dist22 (BitVec.ofNat 10 e)
  | 23 => .dist23 (BitVec.ofNat 10 e)
  | 24 => .dist24 (BitVec.ofNat 11 e)
  | 25 => .dist25 (BitVec.ofNat 11 e)
  | 26 => .dist26 (BitVec.ofNat 12 e)
  | 27 => .dist27 (BitVec.ofNat 12 e)
  | 28 => .dist28 (BitVec.ofNat 13 e)
  | 29 => .dist29 (BitVec.ofNat 13 e)
  | 30 => .distReserved30
  | _ => .distReserved31

/-- The filter-type map (R94). -/
def decodeFilterType (t : Byte) : Instr :=
  match t.toNat with
  | 0 => .ftNone
  | 1 => .ftSub
  | 2 => .ftUp
  | 3 => .ftAvg
  | 4 => .ftPaeth
  | _ => .ftReserved t

/-- The FTYPE of a running FILTER command as its row instruction (R248 to R253; notes/assumptions/7.md). -/
def decodeFilterRow (ftype : BitVec 3) : Instr :=
  match ftype.toNat with
  | 0 => .filterFt0
  | 1 => .filterFt1
  | 2 => .filterFt2
  | 3 => .filterFt3
  | 4 => .filterFt4
  | 5 => .filterFt5
  | 6 => .filterFt6
  | _ => .filterFt7

/-- CMD.OP (R21). -/
def cmdOp (w : Word) : BitVec 4 := w.extractLsb' 0 4

/-- CMD.TBL (R21). -/
def cmdTbl (w : Word) : BitVec 2 := w.extractLsb' 4 2

/-- CMD.NBITS (R21). -/
def cmdNbits (w : Word) : BitVec 6 := w.extractLsb' 8 6

/-- CMD.FTYPE (R21). -/
def cmdFtype (w : Word) : BitVec 3 := w.extractLsb' 16 3

/-- The FILTER command (R275): FTYPE 0 to 4 starts it, 5 to 7 is the error of R254 (notes/assumptions/7.md). -/
def decodeFilterStart (ftype : BitVec 3) : Instr :=
  match ftype.toNat with
  | 5 => .filterFt5
  | 6 => .filterFt6
  | 7 => .filterFt7
  | _ => .filter ftype

/-- The command opcode map (R95). Bits outside the four fields are ignored (R21). -/
def decodeCommand (w : Word) : Instr :=
  match (cmdOp w).toNat with
  | 0 => .nop
  | 1 => .inflate
  | 2 => .defilter
  | 3 => decodeFilterStart (cmdFtype w)
  | 4 => .crcReset
  | 5 => .crcUpdate
  | 6 => .crcCheck
  | 7 => .huffBuild (cmdTbl w)
  | 8 => .huffDecode (cmdTbl w)
  | 9 => .bitsRead (cmdNbits w)
  | 10 => .bitsAlign
  | 11 => .bitsReset
  | 12 => .cmdReservedC
  | 13 => .cmdReservedD
  | 14 => .cmdReservedE
  | _ => .clear

/-! ## The decoder -/

/-- What the decoder depends on beside the bits: the three tables, DBD.HCLEN, whether a code length was already written
(LENS_IDX > 0, R151), and the number of the draw for R115's impossible reads. -/
structure Ctx where
  lit      : Table
  dist     : Table
  clen     : Table
  hclen    : Nat
  havePrev : Bool
  draw     : Nat
deriving DecidableEq, Repr

/-- A literal/length symbol and its length extra bits (R86, R166). -/
def decodeLitLen (src : BitSource σ) (c : Ctx) (x : σ) : Except DecodeError (Instr × σ) :=
  match decodeSym src c.lit c.draw x with
  | .error e => .error e
  | .ok (sym, x1) =>
    match readExtra src (lext sym.toNat) x1 with
    | .error e => .error e
    | .ok (v, x2) => .ok (litLenInstr sym.toNat v, x2)

/-- A distance symbol and its distance extra bits (R164). -/
def decodeDistance (src : BitSource σ) (c : Ctx) (x : σ) : Except DecodeError (Instr × σ) :=
  match decodeSym src c.dist c.draw x with
  | .error e => .error e
  | .ok (d, x1) =>
    match readExtra src (dext d.toNat) x1 with
    | .error e => .error e
    | .ok (v, x2) => .ok (distInstr d.toNat v, x2)

/-- A code-length symbol (R149): the code, then 0, 2, 3 or 7 extra bits (R85). The extra bits of symbol 16 are read only when
a length precedes it, since R151 checks that first (notes/assumptions/14.md). -/
def decodeClSymbol (src : BitSource σ) (c : Ctx) (x : σ) : Except DecodeError (Instr × σ) :=
  match decodeSym src c.clen c.draw x with
  | .error e => .error e
  | .ok (sym, x1) =>
    if sym.toNat ≤ 15 then .ok (.clLen (BitVec.ofNat 4 sym.toNat), x1)
    else if sym.toNat = 16 then
      if c.havePrev then
        match readField src 2 x1 with
        | .error e => .error e
        | .ok (v, x2) => .ok (.clRepeatPrev v, x2)
      else .ok (.clRepeatPrev 0, x1)
    else if sym.toNat = 17 then
      match readField src 3 x1 with
      | .error e => .error e
      | .ok (v, x2) => .ok (.clRepeatZero3 v, x2)
    else if sym.toNat = 18 then
      match readField src 7 x1 with
      | .error e => .error e
      | .ok (v, x2) => .ok (.clRepeatZero11 v, x2)
    else .error .noSuchSymbol

/-- LEN and NLEN after AlignToByte (R82, R140). -/
def decodeStoredHeader (src : BitSource σ) (x : σ) : Except DecodeError (Instr × σ) :=
  match readField src 16 (src.align x) with
  | .error e => .error e
  | .ok (len, x1) =>
    match readField src 16 x1 with
    | .error e => .error e
    | .ok (nlen, x2) => .ok (.storedHeader len nlen, x2)

/-- The three count fields (R83, R146). -/
def decodeDynHeader (src : BitSource σ) (x : σ) : Except DecodeError (Instr × σ) :=
  match readField src 5 x with
  | .error e => .error e
  | .ok (hlit, x1) =>
    match readField src 5 x1 with
    | .error e => .error e
    | .ok (hdist, x2) =>
      match readField src 4 x2 with
      | .error e => .error e
      | .ok (hclen, x3) => .ok (.dynHeader hlit hdist hclen, x3)

/-- BFINAL and BTYPE (R81). -/
def readHeader (src : BitSource σ) (x : σ) : Except DecodeError ((BitVec 1 × BitVec 2) × σ) :=
  match readField src 1 x with
  | .error e => .error e
  | .ok (f, x1) =>
    match readField src 2 x1 with
    | .error e => .error e
    | .ok (t, x2) => .ok ((f, t), x2)

/-- The instruction at the head of the input, and the rest of the input (R80). -/
def decode (src : BitSource σ) (elem : Elem) (c : Ctx) (x : σ) : Except DecodeError (Instr × σ) :=
  match elem with
  | .blockHeader => (readHeader src x).map fun r => (.blockHeader r.1.1 r.1.2, r.2)
  | .blockType => (readHeader src x).map fun r => (decodeBlockType r.1.1 r.1.2, r.2)
  | .storedHeader => decodeStoredHeader src x
  | .storedByte => (readField src 8 x).map fun r => (.storedByte r.1, r.2)
  | .dynHeader => decodeDynHeader src x
  | .dynClLengths => (readLengths src c.hclen x).map fun r => (.dynClLengths r.1, r.2)
  | .clSymbol => decodeClSymbol src c x
  | .litLen => decodeLitLen src c x
  | .distance => decodeDistance src c x
  | .defilterRow => (readField src 8 x).map fun r => (decodeFilterType r.1, r.2)
  | .command => (readField src 32 x).map fun r => (decodeCommand r.1, r.2)
  | .filterRow => (readField src 32 x).map fun r => (decodeFilterRow (cmdFtype r.1), r.2)

/-! ## The encoder -/

/-- The format an instruction is written in (R80 to R88). -/
def formatOf : Instr → Elem
  | .blockHeader _ _ => .blockHeader
  | .storedHeader _ _ => .storedHeader
  | .storedByte _ => .storedByte
  | .dynHeader _ _ _ => .dynHeader
  | .dynClLengths _ => .dynClLengths
  | .blkStored _ | .blkFixed _ | .blkDynamic _ | .blkReserved _ => .blockType
  | .clLen _ | .clRepeatPrev _ | .clRepeatZero3 _ | .clRepeatZero11 _ => .clSymbol
  | .ftNone | .ftSub | .ftUp | .ftAvg | .ftPaeth | .ftReserved _ => .defilterRow
  | .filterFt0 | .filterFt1 | .filterFt2 | .filterFt3 | .filterFt4 => .filterRow
  | .nop | .inflate | .defilter | .filter _ | .crcReset | .crcUpdate | .crcCheck | .huffBuild _ | .huffDecode _
  | .bitsRead _ | .bitsAlign | .bitsReset | .cmdReservedC | .cmdReservedD | .cmdReservedE | .clear
  | .filterFt5 | .filterFt6 | .filterFt7 => .command
  | .dist0 | .dist1 | .dist2 | .dist3 | .dist4 _ | .dist5 _ | .dist6 _ | .dist7 _ | .dist8 _ | .dist9 _ | .dist10 _
  | .dist11 _ | .dist12 _ | .dist13 _ | .dist14 _ | .dist15 _ | .dist16 _ | .dist17 _ | .dist18 _ | .dist19 _ | .dist20 _
  | .dist21 _ | .dist22 _ | .dist23 _ | .dist24 _ | .dist25 _ | .dist26 _ | .dist27 _ | .dist28 _ | .dist29 _
  | .distReserved30 | .distReserved31 => .distance
  | .lit _ | .eob | .len257 | .len258 | .len259 | .len260 | .len261 | .len262 | .len263 | .len264 | .len265 _ | .len266 _
  | .len267 _ | .len268 _ | .len269 _ | .len270 _ | .len271 _ | .len272 _ | .len273 _ | .len274 _ | .len275 _ | .len276 _
  | .len277 _ | .len278 _ | .len279 _ | .len280 _ | .len281 _ | .len282 _ | .len283 _ | .len284 _ | .len285
  | .llReserved286 | .llReserved287 => .litLen

/-- The code of symbol `sym` (R112), searched from length `L` on: its length and value. A symbol whose code would not fit its
length has none (R113). -/
def findCode (T : Table) (sym : Nat) : (fuel L first index : Nat) → Option (Nat × Nat)
  | 0, _, _, _ => none
  | fuel + 1, L, first, index =>
    match ((T.symbols.drop index).take (T.count L)).findIdx? (fun v => v.toNat == sym) with
    | some j =>
      if first + j < 2 ^ L then some (L, first + j)
      else findCode T sym fuel (L + 1) (2 * (first + T.count L)) (index + T.count L)
    | none => findCode T sym fuel (L + 1) (2 * (first + T.count L)) (index + T.count L)

/-- The code of a symbol in stream order. -/
def encodeSym (T : Table) (sym : Nat) : Option (List Bool) :=
  (findCode T sym Config.maxBits 1 0 0).map fun lc => codeBits lc.1 lc.2

/-- A literal/length symbol and its extra bits (R86). -/
def encodeLitLen (c : Ctx) (sym e : Nat) : Option (List Bool) :=
  (encodeSym c.lit sym).map fun code => code ++ fieldBits (lext sym) e

/-- A distance symbol and its extra bits (R164). -/
def encodeDistance (c : Ctx) (d e : Nat) : Option (List Bool) :=
  (encodeSym c.dist d).map fun code => code ++ fieldBits (dext d) e

/-- A code-length symbol and `n` extra bits (R85). -/
def encodeClSymbol (c : Ctx) (sym n e : Nat) : Option (List Bool) :=
  (encodeSym c.clen sym).map fun code => code ++ fieldBits n e

/-- A CMD word (R88): OP | TBL << 4 | NBITS << 8 | FTYPE << 16. -/
def cmdWord (op tbl nbits ftype : Nat) : Nat := op + tbl * 2 ^ 4 + nbits * 2 ^ 8 + ftype * 2 ^ 16

/-- The bits of a CMD word. -/
def encodeCmd (op tbl nbits ftype : Nat) : Option (List Bool) := some (fieldBits 32 (cmdWord op tbl nbits ftype))

/-- The bits of an instruction that starts at stream position `pos`, in stream order; none when the tables give its symbol no
code or the context does not admit its operands (HCLEN lengths, R147; no extra bits for a first symbol 16, R151). -/
def encode (c : Ctx) (pos : Nat) : Instr → Option (List Bool)
  | .blockHeader f t => some (fieldBits 1 f.toNat ++ fieldBits 2 t.toNat)
  | .storedHeader len nlen =>
    some (List.replicate (padLength pos) false ++ (fieldBits 16 len.toNat ++ fieldBits 16 nlen.toNat))
  | .storedByte b => some (fieldBits 8 b.toNat)
  | .dynHeader hlit hdist hclen =>
    some (fieldBits 5 hlit.toNat ++ (fieldBits 5 hdist.toNat ++ fieldBits 4 hclen.toNat))
  | .dynClLengths lens =>
    if lens.length = c.hclen then some (lens.flatMap fun l => fieldBits 3 l.toNat) else none
  | .blkStored f => some (fieldBits 1 f.toNat ++ fieldBits 2 0)
  | .blkFixed f => some (fieldBits 1 f.toNat ++ fieldBits 2 1)
  | .blkDynamic f => some (fieldBits 1 f.toNat ++ fieldBits 2 2)
  | .blkReserved f => some (fieldBits 1 f.toNat ++ fieldBits 2 3)
  | .lit b => encodeLitLen c b.toNat 0
  | .eob => encodeLitLen c 256 0
  | .len257 => encodeLitLen c 257 0
  | .len258 => encodeLitLen c 258 0
  | .len259 => encodeLitLen c 259 0
  | .len260 => encodeLitLen c 260 0
  | .len261 => encodeLitLen c 261 0
  | .len262 => encodeLitLen c 262 0
  | .len263 => encodeLitLen c 263 0
  | .len264 => encodeLitLen c 264 0
  | .len265 e => encodeLitLen c 265 e.toNat
  | .len266 e => encodeLitLen c 266 e.toNat
  | .len267 e => encodeLitLen c 267 e.toNat
  | .len268 e => encodeLitLen c 268 e.toNat
  | .len269 e => encodeLitLen c 269 e.toNat
  | .len270 e => encodeLitLen c 270 e.toNat
  | .len271 e => encodeLitLen c 271 e.toNat
  | .len272 e => encodeLitLen c 272 e.toNat
  | .len273 e => encodeLitLen c 273 e.toNat
  | .len274 e => encodeLitLen c 274 e.toNat
  | .len275 e => encodeLitLen c 275 e.toNat
  | .len276 e => encodeLitLen c 276 e.toNat
  | .len277 e => encodeLitLen c 277 e.toNat
  | .len278 e => encodeLitLen c 278 e.toNat
  | .len279 e => encodeLitLen c 279 e.toNat
  | .len280 e => encodeLitLen c 280 e.toNat
  | .len281 e => encodeLitLen c 281 e.toNat
  | .len282 e => encodeLitLen c 282 e.toNat
  | .len283 e => encodeLitLen c 283 e.toNat
  | .len284 e => encodeLitLen c 284 e.toNat
  | .len285 => encodeLitLen c 285 0
  | .llReserved286 => encodeLitLen c 286 0
  | .llReserved287 => encodeLitLen c 287 0
  | .dist0 => encodeDistance c 0 0
  | .dist1 => encodeDistance c 1 0
  | .dist2 => encodeDistance c 2 0
  | .dist3 => encodeDistance c 3 0
  | .dist4 e => encodeDistance c 4 e.toNat
  | .dist5 e => encodeDistance c 5 e.toNat
  | .dist6 e => encodeDistance c 6 e.toNat
  | .dist7 e => encodeDistance c 7 e.toNat
  | .dist8 e => encodeDistance c 8 e.toNat
  | .dist9 e => encodeDistance c 9 e.toNat
  | .dist10 e => encodeDistance c 10 e.toNat
  | .dist11 e => encodeDistance c 11 e.toNat
  | .dist12 e => encodeDistance c 12 e.toNat
  | .dist13 e => encodeDistance c 13 e.toNat
  | .dist14 e => encodeDistance c 14 e.toNat
  | .dist15 e => encodeDistance c 15 e.toNat
  | .dist16 e => encodeDistance c 16 e.toNat
  | .dist17 e => encodeDistance c 17 e.toNat
  | .dist18 e => encodeDistance c 18 e.toNat
  | .dist19 e => encodeDistance c 19 e.toNat
  | .dist20 e => encodeDistance c 20 e.toNat
  | .dist21 e => encodeDistance c 21 e.toNat
  | .dist22 e => encodeDistance c 22 e.toNat
  | .dist23 e => encodeDistance c 23 e.toNat
  | .dist24 e => encodeDistance c 24 e.toNat
  | .dist25 e => encodeDistance c 25 e.toNat
  | .dist26 e => encodeDistance c 26 e.toNat
  | .dist27 e => encodeDistance c 27 e.toNat
  | .dist28 e => encodeDistance c 28 e.toNat
  | .dist29 e => encodeDistance c 29 e.toNat
  | .distReserved30 => encodeDistance c 30 0
  | .distReserved31 => encodeDistance c 31 0
  | .clLen l => encodeClSymbol c l.toNat 0 0
  | .clRepeatPrev e =>
    if c.havePrev then encodeClSymbol c 16 2 e.toNat else if e = 0 then encodeClSymbol c 16 0 0 else none
  | .clRepeatZero3 e => encodeClSymbol c 17 3 e.toNat
  | .clRepeatZero11 e => encodeClSymbol c 18 7 e.toNat
  | .ftNone => some (fieldBits 8 0)
  | .ftSub => some (fieldBits 8 1)
  | .ftUp => some (fieldBits 8 2)
  | .ftAvg => some (fieldBits 8 3)
  | .ftPaeth => some (fieldBits 8 4)
  | .ftReserved t => some (fieldBits 8 t.toNat)
  | .nop => encodeCmd 0 0 0 0
  | .inflate => encodeCmd 1 0 0 0
  | .defilter => encodeCmd 2 0 0 0
  | .filter ft => encodeCmd 3 0 0 ft.toNat
  | .crcReset => encodeCmd 4 0 0 0
  | .crcUpdate => encodeCmd 5 0 0 0
  | .crcCheck => encodeCmd 6 0 0 0
  | .huffBuild tbl => encodeCmd 7 tbl.toNat 0 0
  | .huffDecode tbl => encodeCmd 8 tbl.toNat 0 0
  | .bitsRead n => encodeCmd 9 0 n.toNat 0
  | .bitsAlign => encodeCmd 10 0 0 0
  | .bitsReset => encodeCmd 11 0 0 0
  | .cmdReservedC => encodeCmd 12 0 0 0
  | .cmdReservedD => encodeCmd 13 0 0 0
  | .cmdReservedE => encodeCmd 14 0 0 0
  | .clear => encodeCmd 15 0 0 0
  | .filterFt0 => encodeCmd 3 0 0 0
  | .filterFt1 => encodeCmd 3 0 0 1
  | .filterFt2 => encodeCmd 3 0 0 2
  | .filterFt3 => encodeCmd 3 0 0 3
  | .filterFt4 => encodeCmd 3 0 0 4
  | .filterFt5 => encodeCmd 3 0 0 5
  | .filterFt6 => encodeCmd 3 0 0 6
  | .filterFt7 => encodeCmd 3 0 0 7

/-! ## Tables a word of opcode_table.json is read with -/

/-- The symbols `lo`, `lo + 1`, …, `n` of them. -/
def symbolRun (lo n : Nat) : List (BitVec 9) := (List.range n).map fun i => BitVec.ofNat 9 (lo + i)

/-- The table in which symbol s < n ≤ 32 has the 5-bit code s. -/
def flatTable (n : Nat) : Table :=
  { counts := [0, 0, 0, 0, 0, BitVec.ofNat 16 n, 0, 0, 0, 0, 0, 0, 0, 0, 0, 0], symbols := symbolRun 0 n, n := BitVec.ofNat 9 n }

/-- The fixed literal/length table as built (R122). -/
def fixedLit : Table :=
  { counts := [0, 0, 0, 0, 0, 0, 0, 24, 152, 112, 0, 0, 0, 0, 0, 0]
    symbols := symbolRun 256 24 ++ symbolRun 0 144 ++ symbolRun 280 8 ++ symbolRun 144 112
    n := 288 }

/-- The tables for the words of opcode_table.json: LIT codes are the fixed block's (R97), a DIST or CLEN symbol has itself as
its 5-bit code, so that every symbol of the table, 30 and 31 among them, has a code. -/
def tableCtx : Ctx :=
  { lit := fixedLit, dist := flatTable 32, clen := flatTable 19, hclen := 4, havePrev := true, draw := 0 }

/-- Which format a word of opcode_table.json is read in. The table's formats share words (0 is BLK_STORED, DIST0, CL_LEN,
FT_NONE and NOP), and the question has no format; notes/assumptions/8.md gives the choice made here. -/
def tableFormat (nbits w : Nat) : Elem :=
  if nbits ≤ 8 then
    if w % 128 = 16 ∨ w % 128 = 17 ∨ w % 128 = 18 then .clSymbol
    else if w = 30 ∨ w = 31 then .distance
    else .command
  else if nbits ≤ 16 then
    if 18 ≤ w ∧ w ≤ 29 then .distance
    else if w < 288 then .litLen
    else .command
  else if nbits ≤ 24 ∧ w % 16 = 3 ∧ w / 2 ^ 16 % 8 ≤ 4 then .filterRow
  else .command

/-- The bits that the word stands for: a command word as it is, a symbol as its code; the operand bits after it are 0. -/
def tableBits (nbits w : Nat) : List Bool :=
  match tableFormat nbits w with
  | .clSymbol => codeBits 5 (w % 32) ++ List.replicate 48 false
  | .distance => codeBits 5 (w % 32) ++ List.replicate 48 false
  | .litLen => ((encodeSym fixedLit (w % 512)).getD []) ++ List.replicate 48 false
  | _ => fieldBits 32 w

/-- The instruction the decoder reads from a word of opcode_table.json. -/
def decodeTableWord (nbits w : Nat) : Option Instr :=
  match decode bitListSource (tableFormat nbits w) tableCtx { pos := 0, bits := tableBits nbits w } with
  | .ok (i, _) => some i
  | .error _ => none

end Sys2Proof
end

