-- ==== Sys2Proof/Machine/State.lean ====
section
/-! DEFINITION. The state of MIB as plain data: every register, table and byte the spec names (R20 to R45, R50), and the
model's own fields, and the state right after reset. -/

namespace Sys2Proof.Machine

/-- STATUS.STATE (R23). -/
inductive RunState where
  | idle | busy | done | error
deriving DecidableEq, Repr

/-- HIF.PHASE (R45). -/
inductive Phase where
  | start | run
deriving DecidableEq, Repr

/-- DBD.ST (R34): S_IDLE, S_HDR, S_STORED_HDR, S_STORED_BYTE, S_DYN_HDR, S_DYN_CLL, S_DYN_CL, S_SYM. -/
inductive DbdState where
  | idle | hdr | storedHdr | storedByte | dynHdr | dynCll | dynCl | sym
deriving DecidableEq, Repr

/-- The error details 1 to 17 (R302). -/
inductive ErrDetail where
  | truncated | btypeReserved | storedUnsupported | lenNlenMismatch | huffNoMatch | litLenSymbolInvalid
  | distSymbolInvalid | distTooFar | outOverflow | repeatNoPrevious | repeatOverflow | countsInvalid
  | filterTypeInvalid | srcShort | dstShort | cmdReserved | argInvalid
deriving DecidableEq, Repr

/-- The command that an error ends (R306 lists, per command, what is unspecified then). -/
inductive Op where
  | nop | inflate | defilter | filter | crcReset | crcUpdate | crcCheck | huffBuild (tbl : BitVec 2) | huffDecode
  | bitsRead | bitsAlign | bitsReset | reserved | clear
deriving DecidableEq, Repr

/-- What is left of a two-part element inside one ENGINE step (notes/assumptions/6.md): the BTYPE dispatch of a header
(R131), or the distance part of a length code, with the length decoded so far (R162). -/
inductive Pending where
  | none
  | blockType
  | distance (len : Nat)
deriving DecidableEq, Repr

/-- One move of the machine's surroundings (R11, R320; notes/assumptions/5.md). A register is named by its word index, offset
divided by 4, so a narrower or unaligned access does not exist (R33 (a), U8). -/
inductive Move where
  /-- A host write of a register (R20). -/
  | writeReg (index : BitVec 6) (v : Word)
  /-- A host read of a register (R20). -/
  | readReg (index : BitVec 6)
  /-- A host write of a byte of M (R75). -/
  | writeMem (a : Addr) (v : Byte)
  /-- A host read of a byte of M (R75). -/
  | readMem (a : Addr)
  /-- POLL: the host reads STATUS until STATE is not BUSY (R98, R292). -/
  | poll
  /-- ENGINE's turn (R270). -/
  | engine
  /-- The reset event (R320). -/
  | reset
deriving DecidableEq, Repr

/-- Why the machine stops: raised only in states no run reaches, so both are safe (notes/assumptions/11.md). -/
inductive Fault where
  /-- Raised by the engine's turn: BUSY, but R130 or R270 gives no step (PHASE RUN with a command that completes in its start
  step, or INFLATE in S_IDLE). Safe. -/
  | noEngineStep
  /-- Raised by the fetch of a code-length symbol above 18, which a table built over 19 symbols never gives (R93). Safe. -/
  | noSuchSymbol
deriving DecidableEq, Repr

/-- What the model gives no meaning to. -/
inductive Refusal where
  /-- Raised by exec's arm of an instruction that has no meaning yet. Safe. -/
  | notModelled (mnemonic : String)
  /-- Raised by a host access to IN or OUT while BUSY, a move the spec does not give the host (R75, R330, U7). Safe
  (notes/assumptions/9.md). -/
  | windowAccessWhileBusy
deriving DecidableEq, Repr

/-- The machine. The field names are the spec's register names; INVENTORY.md gives the rule of each. -/
structure State where
  /-- STATUS.STATE (R23). -/
  state     : RunState
  /-- STATUS.CRC_MATCH (R23). -/
  crcMatch  : Bool
  /-- STATUS.ERR_CLASS (R23, R301). -/
  errClass  : BitVec 4
  /-- STATUS.ERR_DETAIL (R23, R302). -/
  errDetail : BitVec 8
  /-- STATUS.LAST_OP (R23). -/
  lastOp    : BitVec 4
  /-- CFG[1:0] (R22): bit 0 STORED_EN, bit 1 STRICT_COUNTS; the bits above read 0. -/
  cfg       : BitVec 2
  inBase    : Word
  inLen     : Word
  outBase   : Word
  outCap    : Word
  width     : Word
  height    : Word
  /-- HUFF_N[8:0] (R27); the bits above read 0. -/
  huffN     : BitVec 9
  outLen    : Word
  inPos     : Word
  /-- BIT_CNT[5:0] (R29); the bits above read 0. -/
  bitCnt    : BitVec 6
  bitBuf    : BitVec 64
  result    : Word
  errByte   : Word
  /-- ERR_BIT[2:0] (R32); the bits above read 0. -/
  errBit    : BitVec 3
  /-- CRC_STATE (R36); CRC_VALUE is its complement (R30). -/
  crcState  : Word
  /-- DBD.ST (R34). -/
  st        : DbdState
  bfinal    : BitVec 1
  btype     : BitVec 2
  storedRem : BitVec 16
  hlit      : BitVec 9
  hdist     : BitVec 6
  hclen     : BitVec 5
  lensIdx   : BitVec 9
  /-- LENS[0..319] (R41). -/
  lens      : List (BitVec 4)
  /-- CL_LENS[0..18] (R41). -/
  clLens    : List (BitVec 3)
  lit       : Table
  dist      : Table
  clen      : Table
  /-- SFB.ROW (R39). -/
  sfbRow    : Word
  /-- SFB.FT (R39). -/
  sfbFt     : BitVec 3
  /-- HIF.CMDL (R45). -/
  cmdl      : Word
  /-- HIF.PHASE (R45). -/
  phase     : Phase
  /-- M (R8, R43): the listed bytes, in canonical form. -/
  mem       : List Host.Cell
  /-- The model's own: the moves still to come, the next one first. -/
  moves     : List Move
  /-- The model's own: what the last host read returned. -/
  hostRead  : Word
  /-- The model's own: the number of steps taken, which indexes the free values. -/
  tick      : Nat
  /-- The model's own: bp at the start of the element that runs, the `s` of R130 and R305. -/
  eltStart  : Nat
  /-- The model's own: what is left of a two-part element inside one ENGINE step. -/
  pending   : Pending
deriving DecidableEq, Repr

/-- A table after reset (R50): every count and n 0. The symbols are unspecified there and 0 here (DESIGN CHOICE,
notes/assumptions/4.md). -/
def emptyTable (cap : Nat) : Table :=
  { counts := List.replicate 16 0, symbols := List.replicate cap 0, n := 0 }

/-- The machine right after reset (R50). LENS and CL_LENS are unspecified there and 0 here (DESIGN CHOICE,
notes/assumptions/4.md). -/
def State.reset : State :=
  { state := .idle, crcMatch := false, errClass := 0, errDetail := 0, lastOp := 0, cfg := 1
    inBase := 0, inLen := 0, outBase := 0, outCap := 0, width := 0, height := 0, huffN := 0
    outLen := 0, inPos := 0, bitCnt := 0, bitBuf := 0, result := 0, errByte := 0, errBit := 0, crcState := 0xFFFFFFFF
    st := .idle, bfinal := 0, btype := 0, storedRem := 0, hlit := 0, hdist := 0, hclen := 0, lensIdx := 0
    lens := List.replicate Config.lensCap 0, clLens := List.replicate Config.clenCap 0
    lit := emptyTable Config.litCap, dist := emptyTable Config.distCap, clen := emptyTable Config.clenCap
    sfbRow := 0, sfbFt := 0, cmdl := 0, phase := .start
    mem := [], moves := [], hostRead := 0, tick := 0, eltStart := 0, pending := .none }

end Sys2Proof.Machine
end

