-- ==== Sys2Proof/Machine/Flags.lean ====
section
/-! DEFINITION. The status flags and words: MIB has no condition codes (R38); STATUS is its status register (R23). -/

namespace Sys2Proof.Machine

/-- The number of an error detail (R302). -/
def ErrDetail.code : ErrDetail → BitVec 8
  | .truncated => 1
  | .btypeReserved => 2
  | .storedUnsupported => 3
  | .lenNlenMismatch => 4
  | .huffNoMatch => 5
  | .litLenSymbolInvalid => 6
  | .distSymbolInvalid => 7
  | .distTooFar => 8
  | .outOverflow => 9
  | .repeatNoPrevious => 10
  | .repeatOverflow => 11
  | .countsInvalid => 12
  | .filterTypeInvalid => 13
  | .srcShort => 14
  | .dstShort => 15
  | .cmdReserved => 16
  | .argInvalid => 17

/-- Class(d) (R302): 4 CorruptDeflateStream, 6 FilterTypeInvalid, 7 CommandInvalid (R301). -/
def ErrDetail.errClass : ErrDetail → BitVec 4
  | .filterTypeInvalid => 6
  | .srcShort | .dstShort | .cmdReserved | .argInvalid => 7
  | .truncated | .btypeReserved | .storedUnsupported | .lenNlenMismatch | .huffNoMatch | .litLenSymbolInvalid
  | .distSymbolInvalid | .distTooFar | .outOverflow | .repeatNoPrevious | .repeatOverflow | .countsInvalid => 4

/-- STATUS.STATE as its number (R23). -/
def RunState.code : RunState → BitVec 2
  | .idle => 0
  | .busy => 1
  | .done => 2
  | .error => 3

/-- STATUS as a word (R23): bits 3 and 31:20 read 0. -/
def State.statusWord (s : State) : Word :=
  (0 : BitVec 12) ++ s.lastOp ++ s.errDetail ++ s.errClass ++ (0 : BitVec 1) ++ BitVec.ofBool s.crcMatch ++ s.state.code

/-- CRC_VALUE (R30): always the complement of CRC_STATE. -/
def State.crcValue (s : State) : Word := s.crcState ^^^ 0xFFFFFFFF

end Sys2Proof.Machine
end

