-- ==== Sys2Proof/Machine/Ops.lean ====
section
/-! DEFINITION. The shared operations: bytes of M, the bit cursor (R100 to R103), the table builder (R110), Emit and Copy
(R138, R165), the free draws after an error (R306), raising an error (R300) and clearing it (R289), the window checks (R61,
R62), completion and acceptance of a command (R270). -/

namespace Sys2Proof.Machine

/-- The outcome of a meaning. -/
abbrev Result := Host.Outcome State Fault Refusal

/-! ## Bytes of M (R66) -/

/-- The byte at address `a`. -/
def Memory.read : List Host.Cell → Nat → Byte
  | [], _ => Config.unlistedByte
  | (k, v) :: m, a => if k = a then v else Memory.read m a

/-- Listing byte `v` at address `a`, addresses rising. -/
def Memory.insert : List Host.Cell → Nat → Byte → List Host.Cell
  | [], a, v => [(a, v)]
  | (k, w) :: m, a, v =>
    if a < k then (a, v) :: (k, w) :: m else if a = k then (a, v) :: m else (k, w) :: Memory.insert m a v

/-- Listing no byte at address `a`. -/
def Memory.erase : List Host.Cell → Nat → List Host.Cell
  | [], _ => []
  | (k, w) :: m, a => if k = a then Memory.erase m a else (k, w) :: Memory.erase m a

/-- The byte at `a` becomes `v`; a byte that an unlisted address reads as is not listed. -/
def Memory.write (m : List Host.Cell) (a : Nat) (v : Byte) : List Host.Cell :=
  if v = Config.unlistedByte then Memory.erase m a else Memory.insert m a v

/-- The canonical form: addresses of the 32-bit space, strictly rising, and no entry equal to what an unlisted address reads
as. -/
abbrev Memory.wf (m : List Host.Cell) : Prop :=
  m.Pairwise (fun p q => p.1 < q.1) ∧ ∀ c ∈ m, c.1 < 2 ^ 32 ∧ c.2 ≠ Config.unlistedByte

/-- The address at offset `off` of a window. A window that passed R61 does not wrap; the sum wraps only where no rule leads
(notes/assumptions/10.md). -/
def windowAddr (base : Addr) (off : Nat) : Nat := (base + BitVec.ofNat 32 off).toNat

/-- MemRead(a, 1) (R66). -/
def State.memRead (s : State) (a : Nat) : Byte := Memory.read s.mem a

/-- MemWrite(a, 1, v) (R66). -/
def State.memWrite (s : State) (a : Nat) (v : Byte) : State := { s with mem := Memory.write s.mem a v }

/-! ## The bit cursor -/

/-- The loop of ReadBits(n) (R101): fetch bytes of IN until BIT_CNT ≥ n; none when IN is exhausted. -/
def refill : (fuel n : Nat) → State → Option State
  | 0, n, s => if s.bitCnt.toNat < n then none else some s
  | fuel + 1, n, s =>
    if s.bitCnt.toNat < n then
      if s.inLen.toNat ≤ s.inPos.toNat then none
      else
        refill fuel n
          { s with
            bitBuf := s.bitBuf ||| ((s.memRead (windowAddr s.inBase s.inPos.toNat)).setWidth 64 <<< s.bitCnt.toNat)
            inPos := s.inPos + 1
            bitCnt := s.bitCnt + 8 }
    else some s

/-- Taking `n` buffered bits (R101). -/
def takeBits (n : Nat) (s : State) : Nat × State :=
  (s.bitBuf.toNat % 2 ^ n, { s with bitBuf := s.bitBuf >>> n, bitCnt := s.bitCnt - BitVec.ofNat 6 n })

/-- ReadBits(n) (R101), 1 ≤ n ≤ 32: none stands for TRUNCATED. -/
def readBits (n : Nat) (s : State) : Option (Nat × State) := (refill n n s).map (takeBits n)

/-- AlignToByte() (R102). -/
def alignToByte (s : State) : State := { s with bitBuf := 0, bitCnt := 0 }

/-- ResetCursor() (R103). -/
def resetCursor (s : State) : State := { s with inPos := 0, bitBuf := 0, bitCnt := 0 }

/-- The bit cursor as what the decoder reads from. -/
def cursorSource : BitSource State := { read := readBits, align := alignToByte }

/-! ## Positions -/

/-- The place an error reports: ERR_BYTE and ERR_BIT (R305). -/
abbrev ErrPos := Word × BitVec 3

/-- ErrPos of a stream position `p`: floor(p / 8) and p mod 8 (R305). -/
def streamPos (p : Nat) : ErrPos := (BitVec.ofNat 32 (p / 8), BitVec.ofNat 3 (p % 8))

/-- ErrPos of a failing cursor command: bp at its start (R305). A cursor that an error left unspecified may have no bp; its
position is then free (notes/assumptions/13.md). -/
def cursorPos (s : State) : ErrPos :=
  if s.bitCnt.toNat ≤ 8 * s.inPos.toNat then streamPos s.bp
  else (Config.free 32 .errByte s.tick 0, Config.free 3 .errBit s.tick 0)

/-- ErrPos of every other error: both 0 (R305). -/
def noPos : ErrPos := (0, 0)

/-! ## The state after an error (R306) -/

/-- The cursor becomes unspecified. -/
def drawCursor (s : State) : State :=
  { s with
    inPos := Config.free 32 .inPos s.tick 0
    bitCnt := Config.free 6 .bitCnt s.tick 0
    bitBuf := Config.free 64 .bitBuf s.tick 0 }

/-- RESULT becomes unspecified. -/
def drawResult (s : State) : State := { s with result := Config.free 32 .result s.tick 0 }

/-- The bytes at offsets below `n` of the window at `base` become unspecified. -/
def drawBytes (tick : Nat) (base : Addr) : Nat → List Host.Cell → List Host.Cell
  | 0, m => m
  | n + 1, m => drawBytes tick base n (Memory.write m (windowAddr base n) (Config.free 8 .outByte tick n))

/-- The number of addresses the window OUT has: OUT_CAP, less what would lie past 2^32 (R61; notes/assumptions/15.md). -/
def State.outSize (s : State) : Nat := min s.outCap.toNat (2 ^ 32 - s.outBase.toNat)

/-- OUT_LEN and every byte of OUT become unspecified. -/
def drawOut (s : State) : State :=
  { s with outLen := Config.free 32 .outLen s.tick 0, mem := drawBytes s.tick s.outBase s.outSize s.mem }

/-- A table whose contents are unspecified; counts[0] is always 0 (R40). -/
def drawTable (count symbol n : FreeName) (cap tick : Nat) : Table :=
  { counts := 0 :: (List.range 15).map (Config.free 16 count tick)
    symbols := (List.range cap).map (Config.free 9 symbol tick)
    n := Config.free 9 n tick 0 }

/-- The table TBL names becomes unspecified; TBL = 3 names none. -/
def drawTbl (tbl : BitVec 2) (s : State) : State :=
  match tbl.toNat with
  | 0 => { s with lit := drawTable .litCount .litSymbol .litN Config.litCap s.tick }
  | 1 => { s with dist := drawTable .distCount .distSymbol .distN Config.distCap s.tick }
  | 2 => { s with clen := drawTable .clenCount .clenSymbol .clenN Config.clenCap s.tick }
  | _ => s

/-- LENS and CL_LENS become unspecified: after an error (R306), and at the start of a dynamic block (R41;
notes/assumptions/20.md). -/
def drawLens (s : State) : State :=
  { s with
    lens := (List.range Config.lensCap).map (Config.free 4 .lens s.tick)
    clLens := (List.range Config.clenCap).map (Config.free 3 .clLens s.tick) }

/-- DBD.* other than DBD.ST, LENS and CL_LENS become unspecified. -/
def drawDbd (s : State) : State :=
  drawLens
    { s with
      bfinal := Config.free 1 .bfinal s.tick 0
      btype := Config.free 2 .btype s.tick 0
      storedRem := Config.free 16 .storedRem s.tick 0
      hlit := Config.free 9 .hlit s.tick 0
      hdist := Config.free 6 .hdist s.tick 0
      hclen := Config.free 5 .hclen s.tick 0
      lensIdx := Config.free 9 .lensIdx s.tick 0 }

/-- SFB.ROW and SFB.FT become unspecified. -/
def drawSfb (s : State) : State :=
  { s with sfbRow := Config.free 32 .sfbRow s.tick 0, sfbFt := Config.free 3 .sfbFt s.tick 0 }

/-- What a failing command leaves unspecified (R306, R291; notes/assumptions/3.md). Each value is drawn once, at the raise, and then
kept (DESIGN CHOICE, unsafe: notes/assumptions/21.md). -/
def drawAfterError : Op → State → State
  | .inflate, s => drawTbl 0 (drawTbl 1 (drawTbl 2 (drawDbd (drawOut (drawCursor s)))))
  | .defilter, s | .filter, s => drawSfb (drawOut s)
  | .crcCheck, s => drawResult s
  | .huffBuild tbl, s => drawTbl tbl (drawResult s)
  | .huffDecode, s | .bitsRead, s => drawResult (drawCursor s)
  | .nop, s | .crcReset, s | .crcUpdate, s | .bitsAlign, s | .bitsReset, s | .reserved, s | .clear, s => s

/-! ## Raising an error and leaving it -/

/-- raise Error(d) (R300): the one trap of the block. -/
def raise (op : Op) (d : ErrDetail) (pos : ErrPos) (s : State) : State :=
  { drawAfterError op s with
    state := .error
    errDetail := d.code
    errClass := d.errClass
    errByte := pos.1
    errBit := pos.2
    st := .idle
    pending := .none }

/-- Leaving ERROR or DONE (R289, R309): CLEAR's effect. -/
def clearError (s : State) : State :=
  { s with state := .idle, errClass := 0, errDetail := 0, lastOp := 0xF, errByte := 0, errBit := 0 }

/-- An element of INFLATE that raises: its start is the position (R305). -/
def raiseInflate (d : ErrDetail) (s : State) : State := raise .inflate d (streamPos s.eltStart) s

/-- The outcome of an element of INFLATE whose operations may raise. -/
def orRaise (s : State) : Except ErrDetail State → Result
  | .ok t => .next t
  | .error d => .next (raiseInflate d s)

/-- "complete with DONE" (R270). -/
def complete (s : State) : State := { s with state := .done }

/-- Acceptance of a command word (R270). -/
def acceptCommand (w : Word) (s : State) : State :=
  { s with
    state := .busy
    cmdl := w
    lastOp := cmdOp w
    errClass := 0
    errDetail := 0
    errByte := 0
    errBit := 0
    phase := .start }

/-! ## Window checks (R61, R62, R271) -/

/-- IN does not wrap (R61). -/
def State.inOk (s : State) : Bool := decide (s.inBase.toNat + s.inLen.toNat ≤ 2 ^ 32)

/-- OUT does not wrap (R61). -/
def State.outOk (s : State) : Bool := decide (s.outBase.toNat + s.outCap.toNat ≤ 2 ^ 32)

/-- IN and OUT do not overlap when both are nonempty (R62). -/
def State.disjoint (s : State) : Bool :=
  decide (s.inLen = 0 ∨ s.outCap = 0 ∨ s.inBase.toNat + s.inLen.toNat ≤ s.outBase.toNat ∨
    s.outBase.toNat + s.outCap.toNat ≤ s.inBase.toNat)

/-- The checks of INFLATE, DEFILTER and FILTER (R271). -/
def State.windowsOk (s : State) : Bool := s.inOk && s.outOk && s.disjoint

/-- Address `a` lies in IN. -/
def State.inIn (s : State) (a : Addr) : Bool :=
  decide (s.inBase.toNat ≤ a.toNat ∧ a.toNat < s.inBase.toNat + s.inLen.toNat)

/-- Address `a` lies in OUT. -/
def State.inOut (s : State) (a : Addr) : Bool :=
  decide (s.outBase.toNat ≤ a.toNat ∧ a.toNat < s.outBase.toNat + s.outCap.toNat)

/-! ## The table builder (R110) -/

/-- counts[0..15] of a list of code lengths: entry 0 stays 0. -/
def countLengths : List Nat → List (BitVec 16) → List (BitVec 16)
  | [], counts => counts
  | l :: ls, counts => countLengths ls (if l = 0 then counts else counts.set l (counts.getD l 0 + 1))

/-- offs[L], the sum of counts[0..L-1], for L = 0, 1, …, from `acc` on. -/
def offsetsFrom : List (BitVec 16) → Nat → List Nat
  | [], _ => []
  | c :: cs, acc => acc :: offsetsFrom cs (acc + c.toNat)

/-- The placing loop: symbol `sym` and those after it go to the next free place of their length. -/
def placeSymbols : (lens : List Nat) → (sym : Nat) → (offs : List Nat) → List (BitVec 9) → List (BitVec 9)
  | [], _, _, symbols => symbols
  | l :: ls, sym, offs, symbols =>
    if l = 0 then placeSymbols ls (sym + 1) offs symbols
    else placeSymbols ls (sym + 1) (offs.set l (offs.getD l 0 + 1)) (symbols.set (offs.getD l 0) (BitVec.ofNat 9 sym))

/-- Build(T, lens, N) for a table of `cap` symbols, with N the number of lengths (R110). Nothing is left of the table's old
contents: entry `i` of symbols[] at or past the counts is `unset i`, for which the meanings give a free value (U5;
notes/assumptions/22.md). -/
def build (unset : Nat → BitVec 9) (cap : Nat) (lens : List Nat) : Table :=
  let counts := countLengths lens (List.replicate 16 0)
  { counts := counts
    symbols := placeSymbols lens 0 (offsetsFrom counts 0) ((List.range cap).map unset)
    n := BitVec.ofNat 9 lens.length }

/-- The name of the free values among the symbols of the table TBL names. -/
def symbolName (tbl : BitVec 2) : FreeName :=
  match tbl.toNat with
  | 0 => .litSymbol
  | 1 => .distSymbol
  | _ => .clenSymbol

/-- Build over the table TBL names, its entries past the counts unspecified (R110, U5). -/
def State.built (s : State) (tbl : BitVec 2) (lens : List Nat) : Table :=
  build (Config.free 9 (symbolName tbl) s.tick) (tableCap tbl) lens

/-! ## Output and the end of a block -/

/-- Emit(v) (R138). -/
def emit (v : Byte) (s : State) : Except ErrDetail State :=
  if s.outLen = s.outCap then .error .outOverflow
  else .ok { s.memWrite (windowAddr s.outBase s.outLen.toNat) v with outLen := s.outLen + 1 }

/-- Copy(len, dist) (R165): byte by byte, so that it may read what it wrote. -/
def copy : (len dist : Nat) → State → Except ErrDetail State
  | 0, _, s => .ok s
  | len + 1, dist, s =>
    match emit (s.memRead (windowAddr s.outBase (s.outLen.toNat - dist))) s with
    | .error d => .error d
    | .ok t => copy len dist t

/-- End of block (R139). -/
def endOfBlock (s : State) : State :=
  if s.bfinal = 1 then complete { s with st := .idle } else { s with st := .hdr }

end Sys2Proof.Machine
end

