-- ==== Sys2Proof/Machine/Block.lean ====
section
/-! DEFINITION. The block header, the block types and stored blocks (42_block.md R131 to R141). -/

namespace Sys2Proof.Machine

/-- BLOCK_HEADER (R131): BFINAL and BTYPE are written; the BTYPE dispatch follows in the same step
(notes/assumptions/6.md). -/
def execBlockHeader (f : BitVec 1) (t : BitVec 2) (s : State) : Result :=
  .next { s with bfinal := f, btype := t, pending := .blockType }

/-- The header's registers and the end of its dispatch (R131). -/
def headerDone (f : BitVec 1) (t : BitVec 2) (s : State) : State := { s with bfinal := f, btype := t, pending := .none }

/-- BLK_STORED (R132). -/
def execBlkStored (f : BitVec 1) (s : State) : Result :=
  if s.storedEn then .next { headerDone f 0 s with st := .storedHdr }
  else .next (raiseInflate .storedUnsupported s)

/-- BLK_FIXED (R133): both fixed tables are built. -/
def execBlkFixed (f : BitVec 1) (s : State) : Result :=
  .next { headerDone f 1 s with lit := s.built 0 fixedLitLens, dist := s.built 1 fixedDistLens, st := .sym }

/-- BLK_DYNAMIC (R134); LENS and CL_LENS are unspecified until the block writes them (R41). -/
def execBlkDynamic (f : BitVec 1) (s : State) : Result := .next { drawLens (headerDone f 2 s) with st := .dynHdr }

/-- BLK_RESERVED (R135); BFINAL is irrelevant. -/
def execBlkReserved (_f : BitVec 1) (s : State) : Result := .next (raiseInflate .btypeReserved s)

/-- STORED_HEADER (R140). -/
def execStoredHeader (len nlen : BitVec 16) (s : State) : Result :=
  if len ≠ ~~~nlen then .next (raiseInflate .lenNlenMismatch s)
  else if len = 0 then .next (endOfBlock { s with storedRem := len })
  else .next { s with storedRem := len, st := .storedByte }

/-- One stored byte fewer to copy; after the last one the block ends (R141). -/
def storedByteDone (s : State) : State :=
  if s.storedRem - 1 = 0 then endOfBlock { s with storedRem := s.storedRem - 1 }
  else { s with storedRem := s.storedRem - 1 }

/-- STORED_BYTE (R141). -/
def execStoredByte (b : Byte) (s : State) : Result := orRaise s ((emit b s).map storedByteDone)

end Sys2Proof.Machine
end

