-- ==== Sys2Proof/Machine/Commands.lean ====
section
/-! DEFINITION. The other host commands (46_commands.md R272, R273, R283 to R289), each with the checks of its start step (R271). -/

namespace Sys2Proof.Machine

/-- NOP (R272). -/
def execNop (s : State) : Result := .next (complete s)

/-- INFLATE (R273): the start action; the elements follow, one a step. -/
def execInflate (s : State) : Result :=
  if s.windowsOk then
    .next
      { resetCursor s with
        outLen := 0, bfinal := 0, btype := 0, storedRem := 0, hlit := 0, hdist := 0, hclen := 0, lensIdx := 0, st := .hdr }
  else .next (raise .inflate .argInvalid noPos s)

/-- The code lengths HUFF_BUILD reads (R283): one byte of IN each. -/
def State.buildLengths (s : State) : List Nat :=
  (List.range s.huffN.toNat).map fun i => (s.memRead (windowAddr s.inBase i)).toNat

/-- What HUFF_BUILD raises, if anything, in the order of R283. -/
def buildError (tbl : BitVec 2) (s : State) : Option ErrDetail :=
  if !s.inOk then some .argInvalid
  else if tbl = 3 then some .argInvalid
  else if tableCap tbl < s.huffN.toNat then some .argInvalid
  else if s.inLen.toNat < s.huffN.toNat then some .srcShort
  else if s.buildLengths.any (fun l => decide (15 < l)) then some .argInvalid
  else none

/-- HUFF_BUILD (R283). -/
def execHuffBuild (tbl : BitVec 2) (s : State) : Result :=
  match buildError tbl s with
  | some d => .next (raise (.huffBuild tbl) d noPos s)
  | none =>
    .next (complete
      { s.setTable tbl (s.built tbl s.buildLengths) with
        result := BitVec.ofNat 32 (s.buildLengths.countP (fun l => decide (l ≠ 0))) })

/-- HUFF_DECODE (R284): the cursor goes on from where it stands. -/
def execHuffDecode (tbl : BitVec 2) (s : State) : Result :=
  if s.inOk && decide (tbl ≠ 3) then
    match decodeSym cursorSource (s.table tbl) s.tick s with
    | .ok (sym, t) => .next (complete { t with result := sym.setWidth 32 })
    | .error .huffNoMatch => .next (raise .huffDecode .huffNoMatch (cursorPos s) s)
    | .error .truncated | .error .noSuchSymbol => .next (raise .huffDecode .truncated (cursorPos s) s)
  else .next (raise .huffDecode .argInvalid noPos s)

/-- BITS_READ (R285). -/
def execBitsRead (n : BitVec 6) (s : State) : Result :=
  if s.inOk && decide (1 ≤ n.toNat ∧ n.toNat ≤ 32) then
    match readBits n.toNat s with
    | some (v, t) => .next (complete { t with result := BitVec.ofNat 32 v })
    | none => .next (raise .bitsRead .truncated (cursorPos s) s)
  else .next (raise .bitsRead .argInvalid noPos s)

/-- BITS_ALIGN (R286). -/
def execBitsAlign (s : State) : Result := .next (complete (alignToByte s))

/-- BITS_RESET (R287). -/
def execBitsReset (s : State) : Result := .next (complete (resetCursor s))

/-- What OP 0xC to 0xE do (R288). -/
def reservedCommand (s : State) : Result := .next (raise .reserved .cmdReserved noPos s)

/-- CMD_RESERVED, OP 0xC (R288). -/
def execCmdReservedC (s : State) : Result := reservedCommand s

/-- CMD_RESERVED, OP 0xD (R288). -/
def execCmdReservedD (s : State) : Result := reservedCommand s

/-- CMD_RESERVED, OP 0xE (R288). -/
def execCmdReservedE (s : State) : Result := reservedCommand s

/-- CLEAR (R289), carried out in the host's CMD write. -/
def execClear (s : State) : Result := .next (clearError s)

end Sys2Proof.Machine
end

