-- ==== Sys2Proof/Machine/Crc.lean ====
section
/-! DEFINITION. The CRC-32 engine (45_crc.md). -/

namespace Sys2Proof.Machine

/-- One byte of the update (R263): CRC_TABLE[(CRC_STATE ^ v) & 0xFF] ^ (CRC_STATE >> 8). -/
def crcByte (c : Word) (v : Byte) : Word := crcTable.getD ((c.setWidth 8 ^^^ v).toNat) 0 ^^^ (c >>> 8)

/-- The update over `n` bytes of the window at `base` from offset `i` on (R263). -/
def crcBytes (m : List Host.Cell) (base : Addr) : (n i : Nat) → Word → Word
  | 0, _, c => c
  | n + 1, i, c => crcBytes m base n (i + 1) (crcByte c (Memory.read m (windowAddr base i)))

/-- CRC_RESET (R262, R276). -/
def execCrcReset (s : State) : Result := .next (complete { s with crcState := 0xFFFFFFFF })

/-- CRC_UPDATE (R263, R277). -/
def execCrcUpdate (s : State) : Result :=
  if s.inOk then .next (complete { s with crcState := crcBytes s.mem s.inBase s.inLen.toNat 0 s.crcState })
  else .next (raise .crcUpdate .argInvalid noPos s)

/-- The expected CRC: the first four bytes of IN, big-endian (R71, R89). -/
def State.expectedCrc (s : State) : Word :=
  s.memRead (windowAddr s.inBase 0) ++ s.memRead (windowAddr s.inBase 1) ++ s.memRead (windowAddr s.inBase 2) ++
    s.memRead (windowAddr s.inBase 3)

/-- CRC_CHECK (R265, R278): a mismatch is no error. -/
def execCrcCheck (s : State) : Result :=
  if s.inOk && decide (4 ≤ s.inLen.toNat) then
    .next (complete { s with result := s.crcValue, crcMatch := decide (s.crcValue = s.expectedCrc) })
  else .next (raise .crcCheck .argInvalid noPos s)

end Sys2Proof.Machine
end

