-- ==== Sys2Proof/Machine/Distances.lean ====
section
/-! DEFINITION. The distance symbols (43_symbols.md R162, R164, R165, R200 to R229): they finish the match whose length is pending. -/

namespace Sys2Proof.Machine

/-- The match is done: the symbol loop goes on (R162). -/
def matchDone (s : State) : State := { s with st := .sym, pending := .none }

/-- The distance part of R162: dist = DBASE(d) + extra value, checked against OUT_LEN, then Copy(len, dist) (R165). -/
def distancePart (d e : Nat) (s : State) : Result :=
  if s.outLen.toNat < dbase d + e then .next (raiseInflate .distTooFar s)
  else orRaise s ((copy s.matchLen (dbase d + e) s).map matchDone)

/-- DIST0 (R200). -/
def execDist0 (s : State) : Result := distancePart 0 0 s

/-- DIST1 (R201). -/
def execDist1 (s : State) : Result := distancePart 1 0 s

/-- DIST2 (R202). -/
def execDist2 (s : State) : Result := distancePart 2 0 s

/-- DIST3 (R203). -/
def execDist3 (s : State) : Result := distancePart 3 0 s

/-- DIST4 (R204). -/
def execDist4 (e : BitVec 1) (s : State) : Result := distancePart 4 e.toNat s

/-- DIST5 (R205). -/
def execDist5 (e : BitVec 1) (s : State) : Result := distancePart 5 e.toNat s

/-- DIST6 (R206). -/
def execDist6 (e : BitVec 2) (s : State) : Result := distancePart 6 e.toNat s

/-- DIST7 (R207). -/
def execDist7 (e : BitVec 2) (s : State) : Result := distancePart 7 e.toNat s

/-- DIST8 (R208). -/
def execDist8 (e : BitVec 3) (s : State) : Result := distancePart 8 e.toNat s

/-- DIST9 (R209). -/
def execDist9 (e : BitVec 3) (s : State) : Result := distancePart 9 e.toNat s

/-- DIST10 (R210). -/
def execDist10 (e : BitVec 4) (s : State) : Result := distancePart 10 e.toNat s

/-- DIST11 (R211). -/
def execDist11 (e : BitVec 4) (s : State) : Result := distancePart 11 e.toNat s

/-- DIST12 (R212). -/
def execDist12 (e : BitVec 5) (s : State) : Result := distancePart 12 e.toNat s

/-- DIST13 (R213). -/
def execDist13 (e : BitVec 5) (s : State) : Result := distancePart 13 e.toNat s

/-- DIST14 (R214). -/
def execDist14 (e : BitVec 6) (s : State) : Result := distancePart 14 e.toNat s

/-- DIST15 (R215). -/
def execDist15 (e : BitVec 6) (s : State) : Result := distancePart 15 e.toNat s

/-- DIST16 (R216). -/
def execDist16 (e : BitVec 7) (s : State) : Result := distancePart 16 e.toNat s

/-- DIST17 (R217). -/
def execDist17 (e : BitVec 7) (s : State) : Result := distancePart 17 e.toNat s

/-- DIST18 (R218). -/
def execDist18 (e : BitVec 8) (s : State) : Result := distancePart 18 e.toNat s

/-- DIST19 (R219). -/
def execDist19 (e : BitVec 8) (s : State) : Result := distancePart 19 e.toNat s

/-- DIST20 (R220). -/
def execDist20 (e : BitVec 9) (s : State) : Result := distancePart 20 e.toNat s

/-- DIST21 (R221). -/
def execDist21 (e : BitVec 9) (s : State) : Result := distancePart 21 e.toNat s

/-- DIST22 (R222). -/
def execDist22 (e : BitVec 10) (s : State) : Result := distancePart 22 e.toNat s

/-- DIST23 (R223). -/
def execDist23 (e : BitVec 10) (s : State) : Result := distancePart 23 e.toNat s

/-- DIST24 (R224). -/
def execDist24 (e : BitVec 11) (s : State) : Result := distancePart 24 e.toNat s

/-- DIST25 (R225). -/
def execDist25 (e : BitVec 11) (s : State) : Result := distancePart 25 e.toNat s

/-- DIST26 (R226). -/
def execDist26 (e : BitVec 12) (s : State) : Result := distancePart 26 e.toNat s

/-- DIST27 (R227). -/
def execDist27 (e : BitVec 12) (s : State) : Result := distancePart 27 e.toNat s

/-- DIST28 (R228). -/
def execDist28 (e : BitVec 13) (s : State) : Result := distancePart 28 e.toNat s

/-- DIST29 (R229). -/
def execDist29 (e : BitVec 13) (s : State) : Result := distancePart 29 e.toNat s

/-- DIST_RESERVED30 (R164). -/
def execDistReserved30 (s : State) : Result := .next (raiseInflate .distSymbolInvalid s)

/-- DIST_RESERVED31 (R164). -/
def execDistReserved31 (s : State) : Result := .next (raiseInflate .distSymbolInvalid s)

end Sys2Proof.Machine
end

