-- ==== Sys2Proof/Machine/Dynamic.lean ====
section
/-! DEFINITION. The dynamic block header and the code-length symbols (42_block.md R146 to R154). -/

namespace Sys2Proof.Machine

/-- DYN_HEADER (R146): the three counts, then the strict check. -/
def execDynHeader (hlit hdist : BitVec 5) (hclen : BitVec 4) (s : State) : Result :=
  let t : State :=
    { s with hlit := hlit.setWidth 9 + 257, hdist := hdist.setWidth 6 + 1, hclen := hclen.setWidth 5 + 4, st := .dynCll }
  if s.strictCounts && (decide (286 < t.hlit.toNat) || decide (30 < t.hdist.toNat)) then
    .next (raiseInflate .countsInvalid s)
  else .next t

/-- CL_LENS[CL_ORDER[i]] <- lens[i] (R147). -/
def scatterLengths : List Nat → List (BitVec 3) → List (BitVec 3) → List (BitVec 3)
  | o :: os, l :: ls, cl => scatterLengths os ls (cl.set o l)
  | _, _, cl => cl

/-- DYN_CL_LENGTHS (R147). -/
def execDynClLengths (lens : List (BitVec 3)) (s : State) : Result :=
  let cl := scatterLengths clOrder lens (List.replicate Config.clenCap 0)
  .next { s with clLens := cl, clen := s.built 2 (cl.map BitVec.toNat), lensIdx := 0, st := .dynCl }

/-- Lengths complete (R154): both tables are built when LENS_IDX has reached HLIT + HDIST. -/
def lengthsDone (s : State) : State :=
  if s.lensIdx.toNat = s.lensTotal then
    { s with
      lit := s.built 0 ((s.lens.take s.hlit.toNat).map BitVec.toNat)
      dist := s.built 1 (((s.lens.drop s.hlit.toNat).take s.hdist.toNat).map BitVec.toNat)
      st := .sym }
  else s

/-- LENS[i .. i+r-1] <- v. -/
def fillLens (v : BitVec 4) : (r i : Nat) → List (BitVec 4) → List (BitVec 4)
  | 0, _, lens => lens
  | r + 1, i, lens => fillLens v r (i + 1) (lens.set i v)

/-- A run of `r` lengths `v` (R151 to R153): it must not pass HLIT + HDIST. -/
def runLengths (v : BitVec 4) (r : Nat) (s : State) : Result :=
  if s.lensTotal < s.lensIdx.toNat + r then .next (raiseInflate .repeatOverflow s)
  else
    .next (lengthsDone
      { s with lens := fillLens v r s.lensIdx.toNat s.lens, lensIdx := s.lensIdx + BitVec.ofNat 9 r })

/-- CL_LEN (R150, R149). -/
def execClLen (l : BitVec 4) (s : State) : Result :=
  .next (lengthsDone { s with lens := s.lens.set s.lensIdx.toNat l, lensIdx := s.lensIdx + 1 })

/-- CL_REPEAT_PREV (R151). -/
def execClRepeatPrev (e : BitVec 2) (s : State) : Result :=
  if s.lensIdx = 0 then .next (raiseInflate .repeatNoPrevious s)
  else runLengths (s.lens.getD (s.lensIdx.toNat - 1) 0) (3 + e.toNat) s

/-- CL_REPEAT_ZERO_3 (R152). -/
def execClRepeatZero3 (e : BitVec 3) (s : State) : Result := runLengths 0 (3 + e.toNat) s

/-- CL_REPEAT_ZERO_11 (R153). -/
def execClRepeatZero11 (e : BitVec 7) (s : State) : Result := runLengths 0 (11 + e.toNat) s

end Sys2Proof.Machine
end

