-- ==== Sys2Proof/Machine/Filters.lean ====
section
/-! DEFINITION. The scanline filter bank (44_filter.md): the predictors, the DEFILTER rows and the FILTER rows. -/

namespace Sys2Proof.Machine

/-! ## Predictors (R257) -/

/-- Pred of type 0, None. -/
def predNone (_a _b _c : Byte) : Byte := 0

/-- Pred of type 1, Sub. -/
def predSub (a _b _c : Byte) : Byte := a

/-- Pred of type 2, Up. -/
def predUp (_a b _c : Byte) : Byte := b

/-- Pred of type 3, Average: the sum is formed without wrap (R244). -/
def predAvg (a b _c : Byte) : Byte := BitVec.ofNat 8 ((a.toNat + b.toNat) / 2)

/-- PaethPredictor(a, b, c) (R245), over the integers; ties go to a, then b. -/
def predPaeth (a b c : Byte) : Byte :=
  let p : Int := (a.toNat : Int) + b.toNat - c.toNat
  let pa := (p - a.toNat).natAbs
  let pb := (p - b.toNat).natAbs
  let pc := (p - c.toNat).natAbs
  if pa ≤ pb ∧ pa ≤ pc then a else if pb ≤ pc then b else c

/-- The neighbours a, b and c of byte `x` of row `r` (R256), given where the raw byte `x` of row `r` lies in a window whose
rows are `stride` bytes: raw row r starts at offset r * stride. -/
def neighbours (m : List Host.Cell) (base : Addr) (stride r x : Nat) : Byte × Byte × Byte :=
  (if 4 ≤ x then Memory.read m (windowAddr base (r * stride + x - 4)) else 0,
   if 1 ≤ r then Memory.read m (windowAddr base (r * stride - stride + x)) else 0,
   if 4 ≤ x ∧ 1 ≤ r then Memory.read m (windowAddr base (r * stride - stride + x - 4)) else 0)

/-! ## DEFILTER rows (R240) -/

/-- The byte loop of R240 from byte `x` on, `n` bytes. -/
def defilterBytes (pred : Byte → Byte → Byte → Byte) (inBase outBase : Addr) (stride r : Nat) :
    (n x : Nat) → List Host.Cell → List Host.Cell
  | 0, _, m => m
  | n + 1, x, m =>
    let f := Memory.read m (windowAddr inBase (r * (stride + 1) + 1 + x))
    let abc := neighbours m outBase stride r x
    defilterBytes pred inBase outBase stride r n (x + 1)
      (Memory.write m (windowAddr outBase (r * stride + x)) (f + pred abc.1 abc.2.1 abc.2.2))

/-- The end of a row (R240, R248): the last one sets OUT_LEN and completes the command. -/
def rowDone (outSize : Nat) (m : List Host.Cell) (s : State) : State :=
  if s.sfbRow + 1 = s.height then
    complete { s with mem := m, sfbRow := s.sfbRow + 1, outLen := BitVec.ofNat 32 outSize }
  else { s with mem := m, sfbRow := s.sfbRow + 1 }

/-- The row step of DEFILTER (R240) with the predictor of its filter type. -/
def defilterRow (pred : Byte → Byte → Byte → Byte) (s : State) : Result :=
  .next (rowDone (s.stride * s.height.toNat)
    (defilterBytes pred s.inBase s.outBase s.stride s.sfbRow.toNat s.stride 0 s.mem) s)

/-- FT_NONE (R241). -/
def execFtNone (s : State) : Result := defilterRow predNone s

/-- FT_SUB (R242). -/
def execFtSub (s : State) : Result := defilterRow predSub s

/-- FT_UP (R243). -/
def execFtUp (s : State) : Result := defilterRow predUp s

/-- FT_AVG (R244). -/
def execFtAvg (s : State) : Result := defilterRow predAvg s

/-- FT_PAETH (R245). -/
def execFtPaeth (s : State) : Result := defilterRow predPaeth s

/-- FT_RESERVED (R247): the position is the IN offset of the filter byte (R305). -/
def execFtReserved (_t : Byte) (s : State) : Result :=
  .next (raise .defilter .filterTypeInvalid (BitVec.ofNat 32 (s.sfbRow.toNat * (s.stride + 1)), 0) s)

/-! ## FILTER rows (R248) -/

/-- The byte loop of R248 from byte `x` on, `n` bytes. -/
def filterBytes (pred : Byte → Byte → Byte → Byte) (inBase outBase : Addr) (stride r : Nat) :
    (n x : Nat) → List Host.Cell → List Host.Cell
  | 0, _, m => m
  | n + 1, x, m =>
    let v := Memory.read m (windowAddr inBase (r * stride + x))
    let abc := neighbours m inBase stride r x
    filterBytes pred inBase outBase stride r n (x + 1)
      (Memory.write m (windowAddr outBase (r * (stride + 1) + 1 + x)) (v - pred abc.1 abc.2.1 abc.2.2))

/-- The row step of FILTER (R248) for type `t` with its predictor. -/
def filterRow (t : Byte) (pred : Byte → Byte → Byte → Byte) (s : State) : Result :=
  let m := Memory.write s.mem (windowAddr s.outBase (s.sfbRow.toNat * (s.stride + 1))) t
  .next (rowDone ((s.stride + 1) * s.height.toNat)
    (filterBytes pred s.inBase s.outBase s.stride s.sfbRow.toNat s.stride 0 m) s)

/-- FILTER row of FTYPE 0 (R249). -/
def execFilterFt0 (s : State) : Result := filterRow 0 predNone s

/-- FILTER row of FTYPE 1 (R250). -/
def execFilterFt1 (s : State) : Result := filterRow 1 predSub s

/-- FILTER row of FTYPE 2 (R251). -/
def execFilterFt2 (s : State) : Result := filterRow 2 predUp s

/-- FILTER row of FTYPE 3 (R252). -/
def execFilterFt3 (s : State) : Result := filterRow 3 predAvg s

/-- FILTER row of FTYPE 4 (R253). -/
def execFilterFt4 (s : State) : Result := filterRow 4 predPaeth s

/-- The start of FILTER with FTYPE 5 to 7 (R254): after the window checks, FILTER_TYPE_INVALID. -/
def filterTypeRaise (s : State) : Result :=
  .next (raise .filter (if s.windowsOk then .filterTypeInvalid else .argInvalid) noPos s)

/-- FILTER with FTYPE 5 (R254). -/
def execFilterFt5 (s : State) : Result := filterTypeRaise s

/-- FILTER with FTYPE 6 (R254). -/
def execFilterFt6 (s : State) : Result := filterTypeRaise s

/-- FILTER with FTYPE 7 (R254). -/
def execFilterFt7 (s : State) : Result := filterTypeRaise s

/-! ## The start of DEFILTER and FILTER (R246, R274, R275) -/

/-- The first row is row 0; an image without rows is done at once (R274, R275). -/
def rowsStart (s : State) : State :=
  if s.height = 0 then complete { s with sfbRow := 0, outLen := 0 } else { s with sfbRow := 0 }

/-- The geometry checks (R246): SRC_SHORT before DST_SHORT, without wrap. -/
def geometryError (srcNeed dstNeed : Nat) (s : State) : Option ErrDetail :=
  if s.inLen.toNat < srcNeed then some .srcShort
  else if s.outCap.toNat < dstNeed then some .dstShort
  else none

/-- DEFILTER (R274). -/
def execDefilter (s : State) : Result :=
  if s.windowsOk then
    match geometryError ((s.stride + 1) * s.height.toNat) (s.stride * s.height.toNat) s with
    | some d => .next (raise .defilter d noPos s)
    | none => .next (rowsStart s)
  else .next (raise .defilter .argInvalid noPos s)

/-- FILTER with FTYPE 0 to 4 (R275). -/
def execFilter (ftype : BitVec 3) (s : State) : Result :=
  if s.windowsOk then
    if 4 < ftype.toNat then .next (raise .filter .filterTypeInvalid noPos s)
    else
      match geometryError (s.stride * s.height.toNat) ((s.stride + 1) * s.height.toNat) s with
      | some d => .next (raise .filter d noPos s)
      | none => .next (rowsStart { s with sfbFt := ftype })
  else .next (raise .filter .argInvalid noPos s)

end Sys2Proof.Machine
end

