-- ==== Sys2Proof/Machine/Symbols.lean ====
section
/-! DEFINITION. The literal/length symbols (43_symbols.md R160 to R163, R170 to R198). A length code records its length; its distance follows in the same step (R162, notes/assumptions/6.md). -/

namespace Sys2Proof.Machine

/-- LIT (R160). -/
def execLit (b : Byte) (s : State) : Result := orRaise s ((emit b s).map fun t => { t with st := .sym })

/-- EOB (R161). -/
def execEob (s : State) : Result := .next (endOfBlock s)

/-- The length part of R162: len = LBASE(sym) + extra value; the distance symbol comes next. -/
def lengthPart (sym e : Nat) (s : State) : Result := .next { s with pending := .distance (lbase sym + e) }

/-- LEN257 (R170). -/
def execLen257 (s : State) : Result := lengthPart 257 0 s

/-- LEN258 (R171). -/
def execLen258 (s : State) : Result := lengthPart 258 0 s

/-- LEN259 (R172). -/
def execLen259 (s : State) : Result := lengthPart 259 0 s

/-- LEN260 (R173). -/
def execLen260 (s : State) : Result := lengthPart 260 0 s

/-- LEN261 (R174). -/
def execLen261 (s : State) : Result := lengthPart 261 0 s

/-- LEN262 (R175). -/
def execLen262 (s : State) : Result := lengthPart 262 0 s

/-- LEN263 (R176). -/
def execLen263 (s : State) : Result := lengthPart 263 0 s

/-- LEN264 (R177). -/
def execLen264 (s : State) : Result := lengthPart 264 0 s

/-- LEN265 (R178). -/
def execLen265 (e : BitVec 1) (s : State) : Result := lengthPart 265 e.toNat s

/-- LEN266 (R179). -/
def execLen266 (e : BitVec 1) (s : State) : Result := lengthPart 266 e.toNat s

/-- LEN267 (R180). -/
def execLen267 (e : BitVec 1) (s : State) : Result := lengthPart 267 e.toNat s

/-- LEN268 (R181). -/
def execLen268 (e : BitVec 1) (s : State) : Result := lengthPart 268 e.toNat s

/-- LEN269 (R182). -/
def execLen269 (e : BitVec 2) (s : State) : Result := lengthPart 269 e.toNat s

/-- LEN270 (R183). -/
def execLen270 (e : BitVec 2) (s : State) : Result := lengthPart 270 e.toNat s

/-- LEN271 (R184). -/
def execLen271 (e : BitVec 2) (s : State) : Result := lengthPart 271 e.toNat s

/-- LEN272 (R185). -/
def execLen272 (e : BitVec 2) (s : State) : Result := lengthPart 272 e.toNat s

/-- LEN273 (R186). -/
def execLen273 (e : BitVec 3) (s : State) : Result := lengthPart 273 e.toNat s

/-- LEN274 (R187). -/
def execLen274 (e : BitVec 3) (s : State) : Result := lengthPart 274 e.toNat s

/-- LEN275 (R188). -/
def execLen275 (e : BitVec 3) (s : State) : Result := lengthPart 275 e.toNat s

/-- LEN276 (R189). -/
def execLen276 (e : BitVec 3) (s : State) : Result := lengthPart 276 e.toNat s

/-- LEN277 (R190). -/
def execLen277 (e : BitVec 4) (s : State) : Result := lengthPart 277 e.toNat s

/-- LEN278 (R191). -/
def execLen278 (e : BitVec 4) (s : State) : Result := lengthPart 278 e.toNat s

/-- LEN279 (R192). -/
def execLen279 (e : BitVec 4) (s : State) : Result := lengthPart 279 e.toNat s

/-- LEN280 (R193). -/
def execLen280 (e : BitVec 4) (s : State) : Result := lengthPart 280 e.toNat s

/-- LEN281 (R194). -/
def execLen281 (e : BitVec 5) (s : State) : Result := lengthPart 281 e.toNat s

/-- LEN282 (R195). -/
def execLen282 (e : BitVec 5) (s : State) : Result := lengthPart 282 e.toNat s

/-- LEN283 (R196). -/
def execLen283 (e : BitVec 5) (s : State) : Result := lengthPart 283 e.toNat s

/-- LEN284 (R197). -/
def execLen284 (e : BitVec 5) (s : State) : Result := lengthPart 284 e.toNat s

/-- LEN285 (R198). -/
def execLen285 (s : State) : Result := lengthPart 285 0 s

/-- LL_RESERVED286 (R163). -/
def execLlReserved286 (s : State) : Result := .next (raiseInflate .litLenSymbolInvalid s)

/-- LL_RESERVED287 (R163). -/
def execLlReserved287 (s : State) : Result := .next (raiseInflate .litLenSymbolInvalid s)

end Sys2Proof.Machine
end

