-- ==== Sys2Proof/Machine/Engine.lean ====
section
/-! DEFINITION. The moves of the machine: ENGINE's step (R270, R271, R130), the host's register and memory accesses (R20,
R33, R270), and reset (R320). -/

namespace Sys2Proof.Machine

/-- Two actions of one step, the second from where the first leads. -/
def andThen (r : Result) (f : State → Result) : Result :=
  match r with
  | .next t => f t
  | .fault e => .fault e
  | .refused e => .refused e

/-! ## ENGINE -/

/-- The element that DBD.ST asks for (R130); S_IDLE asks for none. -/
def elemOf : DbdState → Option Elem
  | .idle => none
  | .hdr => some .blockHeader
  | .storedHdr => some .storedHeader
  | .storedByte => some .storedByte
  | .dynHdr => some .dynHeader
  | .dynCll => some .dynClLengths
  | .dynCl => some .clSymbol
  | .sym => some .litLen

/-- Fetching an instruction at bp and running it: the cursor moves past its bits, then its meaning. A fetch that fails raises
(R101, R114). -/
def runElement (elem : Elem) (s : State) : Result :=
  match decode cursorSource elem s.ctx s with
  | .ok (i, t) => exec i t
  | .error .truncated => .next (raiseInflate .truncated s)
  | .error .huffNoMatch => .next (raiseInflate .huffNoMatch s)
  | .error .noSuchSymbol => .fault .noSuchSymbol

/-- The second part of a two-part element, in the same step: the BTYPE dispatch of R131, or the distance symbol of R162. -/
def continueElement (s : State) : Result :=
  match s.pending with
  | .none => .next s
  | .blockType => exec (decodeBlockType s.bfinal s.btype) s
  | .distance _ => runElement .distance s

/-- The start of an element is kept for the error position (R130, R305). -/
def markStart (s : State) : State := { s with eltStart := s.bp }

/-- One element of INFLATE (R130). -/
def inflateStep (s : State) : Result :=
  match s.pending with
  | .none =>
    match elemOf s.st with
    | none => .fault .noEngineStep
    | some elem => andThen (runElement elem (markStart s)) continueElement
  | .blockType | .distance _ => continueElement s

/-- The filter byte of the row DEFILTER processes next (R240). -/
def State.filterByte (s : State) : Byte := s.memRead (windowAddr s.inBase (s.sfbRow.toNat * (s.stride + 1)))

/-- One row of DEFILTER (R240): its filter byte selects the instruction (R94). -/
def defilterStep (s : State) : Result := exec (decodeFilterType s.filterByte) s

/-- One row of FILTER (R248): SFB.FT selects the instruction. -/
def filterStep (s : State) : Result := exec (decodeFilterRow s.sfbFt) s

/-- The start step of the accepted command (R271). -/
def startStep (s : State) : Result := exec (decodeCommand s.cmdl) { s with phase := .run }

/-- The one enabled step of ENGINE while BUSY (R270). -/
def engineStep (s : State) : Result :=
  match s.phase with
  | .start => startStep s
  | .run =>
    match (cmdOp s.cmdl).toNat with
    | 1 => inflateStep s
    | 2 => defilterStep s
    | 3 => filterStep s
    | _ => .fault .noEngineStep

/-- ENGINE's turn: while STATE ≠ BUSY it has no step, and the machine waits (R270, R50). -/
def engineTurn (s : State) : Result := if s.state = .busy then engineStep s else .next s

/-! ## HOST -/

/-- What a register reads as when the block is not BUSY (R20 to R32): CMD and an offset with no register read 0. -/
def State.regValue (s : State) (index : BitVec 6) : Word :=
  match index.toNat with
  | 1 => s.statusWord
  | 2 => s.cfg.setWidth 32
  | 3 => s.inBase
  | 4 => s.inLen
  | 5 => s.outBase
  | 6 => s.outCap
  | 7 => s.width
  | 8 => s.height
  | 9 => s.huffN.setWidth 32
  | 10 => s.outLen
  | 11 => s.inPos
  | 12 => s.bitCnt.setWidth 32
  | 13 => s.result
  | 14 => s.crcValue
  | 15 => s.errByte
  | 16 => s.errBit.setWidth 32
  | _ => 0

/-- A host read (R33 (c)): while BUSY a read-only register other than STATUS (indexes 10 to 16) reads as a free value. -/
def State.regRead (s : State) (index : BitVec 6) : Word :=
  if s.state = .busy ∧ 10 ≤ index.toNat ∧ index.toNat ≤ 16 then Config.free 32 .busyRead s.tick index.toNat
  else s.regValue index

/-- A host write of CMD outside BUSY (R270): CLEAR is carried out at once, ERROR ignores every other command. -/
def commandWrite (w : Word) (s : State) : Result :=
  if cmdOp w = 0xF then exec (decodeCommand w) s
  else if s.state = .error then .next s
  else .next (acceptCommand w s)

/-- A host write of an operand register (R22, R24 to R27); any other register ignores it (R33 (d)). -/
def operandWrite (index : BitVec 6) (v : Word) (s : State) : State :=
  match index.toNat with
  | 2 => { s with cfg := v.setWidth 2 }
  | 3 => { s with inBase := v }
  | 4 => { s with inLen := v }
  | 5 => { s with outBase := v }
  | 6 => { s with outCap := v }
  | 7 => { s with width := v }
  | 8 => { s with height := v }
  | 9 => { s with huffN := v.setWidth 9 }
  | _ => s

/-- A host write of a register: ignored while BUSY (R33 (b)). -/
def writeRegister (index : BitVec 6) (v : Word) (s : State) : Result :=
  if s.state = .busy then .next s
  else if index = 0 then commandWrite v s
  else .next (operandWrite index v s)

/-- The host touches `a`: IN and OUT are not the host's while BUSY (R75, R330). -/
def State.hostMayTouch (s : State) (a : Addr) : Bool :=
  !(decide (s.state = .busy) && (s.inIn a || s.inOut a))

/-- Reset (R320): the block's state as R50 gives it, M as it is. The symbols of the tables, LENS and CL_LENS are unspecified after
it (R50, U5, U6): each table is the one Build makes of no lengths. -/
def resetBlock (s : State) : State :=
  drawLens
    { State.reset with
      mem := s.mem, moves := s.moves, hostRead := s.hostRead, tick := s.tick
      lit := s.built 0 [], dist := s.built 1 [], clen := s.built 2 [] }

/-- One move of the schedule, already taken off it. POLL stays until it reads STATE ≠ BUSY; meanwhile ENGINE steps. -/
def moveStep (m : Move) (s : State) : Result :=
  match m with
  | .writeReg index v => writeRegister index v s
  | .readReg index => .next { s with hostRead := s.regRead index }
  | .writeMem a v => if s.hostMayTouch a then .next (s.memWrite a.toNat v) else .refused .windowAccessWhileBusy
  | .readMem a =>
    if s.hostMayTouch a then .next { s with hostRead := (s.memRead a.toNat).setWidth 32 }
    else .refused .windowAccessWhileBusy
  | .poll =>
    if s.state = .busy then engineStep { s with hostRead := s.statusWord, moves := .poll :: s.moves }
    else .next { s with hostRead := s.statusWord }
  | .engine => engineTurn s
  | .reset => .next (resetBlock s)

/-- The next move: the head of the schedule, and ENGINE's turn when the schedule is empty. -/
def turn (s : State) : Result :=
  match s.moves with
  | [] => engineTurn s
  | m :: ms => moveStep m { s with moves := ms }

/-- A step has been taken: the next one draws other free values. -/
def tickOn (s : State) : State := { s with tick := s.tick + 1 }

/-! ## Placing one instruction (notes/assumptions/8.md) -/

/-- The `n` first bytes of a bit string, written at offsets `k`, `k + 1`, … of a window. -/
def placeBytes (base : Addr) : (n k : Nat) → List Bool → List Host.Cell → List Host.Cell
  | 0, _, _, m => m
  | n + 1, k, bits, m =>
    placeBytes base n (k + 1) (bits.drop 8) (Memory.write m (windowAddr base k) (BitVec.ofNat 8 (bitsValue (bits.take 8))))

/-- INFLATE in the middle of a block: the bits stand at the start of IN, the cursor at bp 0, the tables are `tableCtx`'s. -/
def placeSymbol (st : DbdState) (pending : Pending) (bits : List Bool) (s : State) : State :=
  { s with
    state := .busy, phase := .run, cmdl := 1, lastOp := 1, moves := [], st := st, pending := pending
    lit := tableCtx.lit, dist := tableCtx.dist, clen := tableCtx.clen, hlit := 257, hdist := 1, lensIdx := 1
    inLen := 8, inPos := 0, bitBuf := 0, bitCnt := 0, eltStart := 0
    mem := placeBytes s.inBase 8 0 bits s.mem }

/-- The state whose next step runs the instruction of a word of opcode_table.json: a command is accepted and its start step is
due (CLEAR: its CMD write is due), a FILTER row is due, or a symbol is due in INFLATE. -/
def placeTableWord (nbits w : Nat) (s : State) : State :=
  match tableFormat nbits w with
  | .clSymbol => placeSymbol .dynCl .none (tableBits nbits w) s
  | .litLen => placeSymbol .sym .none (tableBits nbits w) s
  | .distance => placeSymbol .sym (.distance 3) (tableBits nbits w) s
  | .filterRow =>
    { s with
      state := .busy, phase := .run, cmdl := BitVec.ofNat 32 w, lastOp := 3, moves := [], sfbRow := 0, height := 1
      sfbFt := cmdFtype (BitVec.ofNat 32 w) }
  | _ =>
    if cmdOp (BitVec.ofNat 32 w) = 0xF then
      { s with state := .idle, moves := [.writeReg 0 (BitVec.ofNat 32 w)] }
    else { acceptCommand (BitVec.ofNat 32 w) s with moves := [] }

end Sys2Proof.Machine
end

