-- ==== Sys2Proof/Machine/Step.lean ====
section
/-! DEFINITION. One step of the machine, and the placing of one instruction where the next step takes it. -/

namespace Sys2Proof.Machine

/-- One step: the next move of the schedule, or ENGINE's turn (R11, R270). -/
def step (s : State) : Host.Outcome State Fault Refusal :=
  andThen (turn s) (fun t => .next (tickOn t))

/-- The state whose next step runs the instruction of a word of opcode_table.json (notes/assumptions/8.md). -/
def State.withFetchWord (s : State) (nbits w : Nat) : State := placeTableWord nbits w s

end Sys2Proof.Machine
end

