-- ==== Sys2Proof/Safety.lean ====
section
/-! DEFINITION. The vocabulary of the statements: the stream as bits, bytes of the windows, what a command may write (R291),
the state after an error (R306), the row formulas of the filter bank, and the invariants of a safe run. -/

namespace Sys2Proof.Machine

/-! ## The stream (R31, R104) -/

/-- StreamBit(k) (R104): bit `k mod 8` of byte `floor(k / 8)` of IN. -/
def State.streamBit (s : State) (k : Nat) : Bool := (s.memRead (windowAddr s.inBase (k / 8))).getLsbD (k % 8)

/-- The `n` stream bits from bit position `p` on. -/
def State.streamBits (s : State) (p n : Nat) : List Bool := (List.range n).map fun i => s.streamBit (p + i)

/-- The stream as a bit string, from bp to the end of IN. -/
def State.rest (s : State) : BitList := { pos := s.bp, bits := s.streamBits s.bp (8 * s.inLen.toNat - s.bp) }

/-- The cursor between stream elements (R100, R35): at most 7 bits are buffered, they are the stream's bits at bp, and no byte
past IN was fetched. -/
abbrev State.cursorOk (s : State) : Prop :=
  s.bitCnt.toNat ≤ 7 ∧ s.bitCnt.toNat ≤ 8 * s.inPos.toNat ∧ s.inPos.toNat ≤ s.inLen.toNat ∧
    s.bitBuf.toNat = bitsValue (s.streamBits s.bp s.bitCnt.toNat)

/-- Bit `b` of what the cursor reads next, whatever it was left as (R101): BIT_BUF's bits first, and from BIT_CNT on the bits of the
bytes that the next refills fetch at IN_BASE + IN_POS (R78, R334). -/
def State.cursorBit (s : State) (b : Nat) : Bool :=
  s.bitBuf.getLsbD b ||
    (decide (s.bitCnt.toNat ≤ b) &&
      (s.memRead (windowAddr s.inBase (s.inPos.toNat + (b - s.bitCnt.toNat) / 8))).getLsbD ((b - s.bitCnt.toNat) % 8))

/-- Every bit the cursor can still read: the buffered ones and those of the bytes IN has left. -/
def State.cursorBits (s : State) : List Bool :=
  (List.range (s.bitCnt.toNat + 8 * (s.inLen.toNat - s.inPos.toNat))).map s.cursorBit

/-- `t` is `s` with another cursor: what reading the stream may change (R101). -/
abbrev State.cursorOnly (s t : State) : Prop :=
  t = { s with inPos := t.inPos, bitCnt := t.bitCnt, bitBuf := t.bitBuf }

/-! ## Bytes of the windows -/

/-- IN[k]. -/
def State.inByte (s : State) (k : Nat) : Byte := s.memRead (windowAddr s.inBase k)

/-- OUT[k]. -/
def State.outByte (s : State) (k : Nat) : Byte := s.memRead (windowAddr s.outBase k)

/-- Every byte of M but OUT[lo] to OUT[lo + n - 1] is the same in `t` as in `s`. -/
def State.outOnly (s t : State) (lo n : Nat) : Prop :=
  ∀ a, (∀ k, k < n → a ≠ windowAddr s.outBase (lo + k)) → t.memRead a = s.memRead a

/-- The bytes of IN in order. -/
def State.inBytes (s : State) : List Byte := (List.range s.inLen.toNat).map s.inByte

/-- The bytes with a copy of `n` bytes from `dist` back appended, one byte at a time (R165, R333). -/
def copyBytes (dist : Nat) : Nat → List Byte → List Byte
  | 0, l => l
  | n + 1, l => copyBytes dist n (l ++ [l.getD (l.length - dist) 0])

/-- OUT[0 .. OUT_LEN), the bytes produced so far (R28). -/
def State.produced (s : State) : List Byte := (List.range s.outLen.toNat).map s.outByte

/-- The match of `len` bytes at distance `dist` was copied and the symbol loop goes on (R162, R165); nothing else changed. -/
def matchCopied (len dist : Nat) (s t : State) : Prop :=
  t.outLen.toNat = s.outLen.toNat + len ∧ t.produced = copyBytes dist len s.produced ∧
    s.outOnly t s.outLen.toNat len ∧
    t = { s with mem := t.mem, outLen := t.outLen, st := .sym, pending := .none }

/-- What a distance code of distance `dist` does (R162, R164, R165), for every pending length: it copies the match, or raises
DIST_TOO_FAR, or raises OUT_OVERFLOW when OUT fills during the copy. -/
def distanceRule (i : Instr) (dist : Nat) : Prop :=
  ∀ (s : State) (len : Nat), s.pending = .distance len →
    (dist ≤ s.outLen.toNat → s.outLen.toNat + len ≤ s.outCap.toNat → ∃ t, exec i s = .next t ∧ matchCopied len dist s t) ∧
    (s.outLen.toNat < dist → exec i s = .next (raiseInflate .distTooFar s)) ∧
    (dist ≤ s.outLen.toNat → s.outLen.toNat ≤ s.outCap.toNat → s.outCap.toNat < s.outLen.toNat + len →
      exec i s = .next (raiseInflate .outOverflow s))

/-- The fixed distance table as built (R122), with 0 in its two entries past the counts. -/
def fixedDist : Table := build (fun _ => 0) Config.distCap fixedDistLens

/-- What the rule of one length code says (R170 to R198): in a fixed block its code and `lext` extra bits are read, and for
every extra value `e` the length is `lbase + e`, with the distance still to come. -/
def lengthRule (code : List Bool) (lext lbase : Nat) (i : Nat → Instr) : Prop :=
  ∀ e, e < 2 ^ lext →
    (∀ c pos rest, c.lit = fixedLit →
      decode bitListSource .litLen c { pos := pos, bits := code ++ (fieldBits lext e ++ rest) } =
        .ok (i e, { pos := pos + code.length + lext, bits := rest })) ∧
    ∀ s : State, exec (i e) s = .next { s with pending := .distance (lbase + e) }

/-- What the rule of one distance code says (R200 to R229): in a fixed block its code and `dext` extra bits are read, and for
every extra value `e` the distance is `dbase + e`, whatever the two table entries past the counts hold. -/
def distanceCodeRule (code : List Bool) (dext dbase : Nat) (i : Nat → Instr) : Prop :=
  ∀ e, e < 2 ^ dext →
    (∀ c unset pos rest, c.dist = build unset Config.distCap fixedDistLens →
      decode bitListSource .distance c { pos := pos, bits := code ++ (fieldBits dext e ++ rest) } =
        .ok (i e, { pos := pos + code.length + dext, bits := rest })) ∧
    distanceRule (i e) (dbase + e)

/-! ## Code lengths (R149 to R154) -/

/-- A run of `r` lengths `v` was written at LENS_IDX, and the tables were built if that completed the lengths (R154); nothing
else changed. -/
def runWritten (v : BitVec 4) (r : Nat) (s t : State) : Prop :=
  t.lensIdx.toNat = s.lensIdx.toNat + r ∧ t.lens.length = s.lens.length ∧
    (∀ k, k < s.lens.length →
      t.lens.getD k 0 = if s.lensIdx.toNat ≤ k ∧ k < s.lensIdx.toNat + r then v else s.lens.getD k 0) ∧
    (if s.lensIdx.toNat + r = s.lensTotal then
      t.lit = s.built 0 ((t.lens.take s.hlit.toNat).map BitVec.toNat) ∧
      t.dist = s.built 1 (((t.lens.drop s.hlit.toNat).take s.hdist.toNat).map BitVec.toNat) ∧ t.st = .sym
    else t.lit = s.lit ∧ t.dist = s.dist ∧ t.st = s.st) ∧
    t = { s with lensIdx := t.lensIdx, lens := t.lens, lit := t.lit, dist := t.dist, st := t.st }

/-! ## Filter rows (R240, R248, R256) -/

/-- The raw bytes a, b and c beside byte `x` of row `r` (R256), where `raw k` is byte `k` of the raw image. -/
def rawNeighbours (raw : Nat → Byte) (stride r x : Nat) : Byte × Byte × Byte :=
  (if 4 ≤ x then raw (r * stride + x - 4) else 0, if 1 ≤ r then raw ((r - 1) * stride + x) else 0,
    if 4 ≤ x ∧ 1 ≤ r then raw ((r - 1) * stride + x - 4) else 0)

/-- Pred(t, a, b, c) of neighbours (R257). -/
def predOf (pred : Byte → Byte → Byte → Byte) (abc : Byte × Byte × Byte) : Byte := pred abc.1 abc.2.1 abc.2.2

/-- A row step's registers (R240, R248): SFB.ROW counts on, and the last row sets OUT_LEN and completes; else only M changed. -/
def rowCounted (outSize : Nat) (s t : State) : Prop :=
  if s.sfbRow + 1 = s.height then
    t = { s with mem := t.mem, sfbRow := s.sfbRow + 1, outLen := BitVec.ofNat 32 outSize, state := .done }
  else t = { s with mem := t.mem, sfbRow := s.sfbRow + 1 }

/-- A row of a running DEFILTER or FILTER: the windows passed their checks and hold the image (R61, R62, R246). -/
abbrev State.rowReady (s : State) (inSize outSize : Nat) : Prop :=
  s.windowsOk = true ∧ inSize * s.height.toNat ≤ s.inLen.toNat ∧ outSize * s.height.toNat ≤ s.outCap.toNat ∧
    s.sfbRow.toNat < s.height.toNat

/-- What a DEFILTER row of one filter type does (R240): every raw byte is the filtered byte plus the prediction from the raw
bytes, no other byte of M changes. -/
def defilterRule (i : Instr) (pred : Byte → Byte → Byte → Byte) : Prop :=
  ∀ s : State, s.rowReady (s.stride + 1) s.stride →
    ∃ t, exec i s = .next t ∧ rowCounted (s.stride * s.height.toNat) s t ∧
      (∀ x, x < s.stride →
        t.outByte (s.sfbRow.toNat * s.stride + x) =
          s.inByte (s.sfbRow.toNat * (s.stride + 1) + 1 + x) +
            predOf pred (rawNeighbours t.outByte s.stride s.sfbRow.toNat x)) ∧
      s.outOnly t (s.sfbRow.toNat * s.stride) s.stride

/-- What a FILTER row of one filter type does (R248): the type byte, then every raw byte less the prediction from the raw
bytes, no other byte of M changes. -/
def filterRule (i : Instr) (type : Byte) (pred : Byte → Byte → Byte → Byte) : Prop :=
  ∀ s : State, s.rowReady s.stride (s.stride + 1) →
    ∃ t, exec i s = .next t ∧ rowCounted ((s.stride + 1) * s.height.toNat) s t ∧
      t.outByte (s.sfbRow.toNat * (s.stride + 1)) = type ∧
      (∀ x, x < s.stride →
        t.outByte (s.sfbRow.toNat * (s.stride + 1) + 1 + x) =
          s.inByte (s.sfbRow.toNat * s.stride + x) -
            predOf pred (rawNeighbours s.inByte s.stride s.sfbRow.toNat x)) ∧
      s.outOnly t (s.sfbRow.toNat * (s.stride + 1)) (s.stride + 1)

/-! ## The CRC (R261, R263) -/

/-- One of the eight steps of R261. -/
def crcStep (c : Word) : Word := if c.getLsbD 0 then 0xEDB88320 ^^^ (c >>> 1) else c >>> 1

/-- Entry `n` of CRC_TABLE as R261 defines it: `n` passed through eight steps. -/
def crcEntry (n : Word) : Word :=
  crcStep (crcStep (crcStep (crcStep (crcStep (crcStep (crcStep (crcStep n)))))))

/-- U(c, S) of R264, with the table entries as R261 defines them. -/
def crcOver (c : Word) (bytes : List Byte) : Word :=
  bytes.foldl (fun c v => crcEntry ((c ^^^ v.setWidth 32) &&& 0xFF) ^^^ (c >>> 8)) c

/-! ## What a command may write, and the state after an error (R291, R306) -/

/-- The command writes the bit cursor. -/
def Op.writesCursor : Op → Bool
  | .inflate | .huffDecode | .bitsRead => true
  | .nop | .defilter | .filter | .crcReset | .crcUpdate | .crcCheck | .huffBuild _ | .bitsAlign | .bitsReset | .reserved
  | .clear => false

/-- The command writes OUT and OUT_LEN. -/
def Op.writesOut : Op → Bool
  | .inflate | .defilter | .filter => true
  | .nop | .crcReset | .crcUpdate | .crcCheck | .huffBuild _ | .huffDecode | .bitsRead | .bitsAlign | .bitsReset | .reserved
  | .clear => false

/-- The command writes RESULT. -/
def Op.writesResult : Op → Bool
  | .crcCheck | .huffBuild _ | .huffDecode | .bitsRead => true
  | .nop | .inflate | .defilter | .filter | .crcReset | .crcUpdate | .bitsAlign | .bitsReset | .reserved | .clear => false

/-- The command writes the table numbered `tbl`. -/
def Op.writesTable (tbl : BitVec 2) : Op → Bool
  | .inflate => true
  | .huffBuild b => decide (b = tbl)
  | .nop | .defilter | .filter | .crcReset | .crcUpdate | .crcCheck | .huffDecode | .bitsRead | .bitsAlign | .bitsReset
  | .reserved | .clear => false

/-- The command writes the SFB registers. -/
def Op.writesSfb : Op → Bool
  | .defilter | .filter => true
  | .nop | .inflate | .crcReset | .crcUpdate | .crcCheck | .huffBuild _ | .huffDecode | .bitsRead | .bitsAlign | .bitsReset
  | .reserved | .clear => false

/-- The command writes the DBD registers, LENS and CL_LENS. -/
def Op.writesDbd (op : Op) : Bool := decide (op = .inflate)

/-- What an error leaves as it was (R306): every register the command does not write, and every byte of M outside OUT. -/
def errorKeeps (op : Op) (s t : State) : Prop :=
  (t.crcMatch = s.crcMatch ∧ t.lastOp = s.lastOp ∧ t.cfg = s.cfg ∧ t.inBase = s.inBase ∧ t.inLen = s.inLen ∧
    t.outBase = s.outBase ∧ t.outCap = s.outCap ∧ t.width = s.width ∧ t.height = s.height ∧ t.huffN = s.huffN ∧
    t.crcState = s.crcState ∧ t.cmdl = s.cmdl ∧ t.phase = s.phase) ∧
  (op.writesCursor = false → t.inPos = s.inPos ∧ t.bitCnt = s.bitCnt ∧ t.bitBuf = s.bitBuf) ∧
  (op.writesOut = false → t.outLen = s.outLen) ∧
  (op.writesResult = false → t.result = s.result) ∧
  (op.writesTable 0 = false → t.lit = s.lit) ∧ (op.writesTable 1 = false → t.dist = s.dist) ∧
  (op.writesTable 2 = false → t.clen = s.clen) ∧
  (op.writesSfb = false → t.sfbRow = s.sfbRow ∧ t.sfbFt = s.sfbFt) ∧
  (op.writesDbd = false →
    t.bfinal = s.bfinal ∧ t.btype = s.btype ∧ t.storedRem = s.storedRem ∧ t.hlit = s.hlit ∧ t.hdist = s.hdist ∧
      t.hclen = s.hclen ∧ t.lensIdx = s.lensIdx ∧ t.lens = s.lens ∧ t.clLens = s.clLens) ∧
  ∀ a, (op.writesOut = true → a < s.outBase.toNat ∨ s.outBase.toNat + s.outCap.toNat ≤ a) → t.memRead a = s.memRead a

/-! ## The invariants of a run -/

/-- The class of a detail number (R302). -/
def detailClass (d : BitVec 8) : BitVec 4 := if d = 0 then 0 else if d ≤ 12 then 4 else if d = 13 then 6 else 7

/-- STATUS, the error registers, DBD.ST and the sequencer agree (R23, R32, R45, R130, R270, R300 to R302). -/
abbrev State.statusOk (s : State) : Prop :=
  (s.state = .error ↔ s.errDetail ≠ 0) ∧ s.errDetail ≤ 17 ∧ s.errClass = detailClass s.errDetail ∧
    (s.state ≠ .error → s.errByte = 0 ∧ s.errBit = 0) ∧
    (s.st ≠ .idle ↔ s.state = .busy ∧ s.phase = .run ∧ cmdOp s.cmdl = 1) ∧
    s.pending = .none ∧
    (s.state = .busy → s.lastOp = cmdOp s.cmdl ∧ cmdOp s.cmdl ≠ 0xF) ∧
    (s.state = .busy → s.phase = .run → cmdOp s.cmdl = 1 ∨ cmdOp s.cmdl = 2 ∨ cmdOp s.cmdl = 3)

/-- A table has its capacity and counts[0] = 0 (R40). -/
abbrev tableShaped (cap : Nat) (T : Table) : Prop :=
  T.counts.length = 16 ∧ T.counts.getD 0 0 = 0 ∧ T.symbols.length = cap

/-- Every register file has its size (R40, R41). -/
abbrev State.shaped (s : State) : Prop :=
  s.lens.length = Config.lensCap ∧ s.clLens.length = Config.clenCap ∧ tableShaped Config.litCap s.lit ∧
    tableShaped Config.distCap s.dist ∧ tableShaped Config.clenCap s.clen

/-- The number of codes of a table: the sum of counts[1..15]. -/
def tableCodes (T : Table) : Nat := ((T.counts.drop 1).map BitVec.toNat).sum

/-- Every entry that a walk can read is a symbol below `n` (R115). -/
abbrev builtOver (n : Nat) (T : Table) : Prop :=
  tableCodes T ≤ T.symbols.length ∧ ∀ i, i < tableCodes T → (T.symbols.getD i 0).toNat < n

/-- The counts of a dynamic block are in their ranges (R83). -/
abbrev State.countsOk (s : State) : Prop :=
  257 ≤ s.hlit.toNat ∧ s.hlit.toNat ≤ 288 ∧ 1 ≤ s.hdist.toNat ∧ s.hdist.toNat ≤ 32

/-- Between two elements of INFLATE: the windows are valid, the cursor stands in the stream, OUT is not over-full, and what
the next element relies on holds (R61, R62, R100, R65, R141, R146, R149 (a), R166 (a)). -/
abbrev State.inflateOk (s : State) : Prop :=
  s.windowsOk = true ∧ s.cursorOk ∧ s.outLen.toNat ≤ s.outCap.toNat ∧
    (s.st = .storedByte → s.storedRem ≠ 0 ∧ s.bitCnt = 0) ∧
    (s.st = .dynCll → s.countsOk ∧ 4 ≤ s.hclen.toNat ∧ s.hclen.toNat ≤ 19) ∧
    (s.st = .dynCl → s.countsOk ∧ s.lensIdx.toNat < s.lensTotal ∧ builtOver 19 s.clen) ∧
    (s.st = .sym → builtOver 288 s.lit ∧ builtOver 32 s.dist)

/-- What every run keeps: M is in its canonical form, the register files have their sizes, the status registers agree, and a
running INFLATE, DEFILTER or FILTER stands where its next step needs it. -/
abbrev State.inv (s : State) : Prop :=
  Memory.wf s.mem ∧ s.shaped ∧ s.statusOk ∧
    (s.state = .busy → s.phase = .run →
      (cmdOp s.cmdl = 1 → s.inflateOk) ∧
      (cmdOp s.cmdl = 2 → s.rowReady (s.stride + 1) s.stride) ∧
      (cmdOp s.cmdl = 3 → s.rowReady s.stride (s.stride + 1) ∧ s.sfbFt.toNat ≤ 4))

/-- INFLATE is between two elements. -/
abbrev State.inflating (s : State) : Prop :=
  s.state = .busy ∧ s.phase = .run ∧ cmdOp s.cmdl = 1 ∧ s.pending = .none

/-- Address `a` is the host's or ENGINE's to look at: inside IN or OUT. -/
def State.inWindows (s : State) (a : Nat) : Prop :=
  (∃ k, k < s.inLen.toNat ∧ a = windowAddr s.inBase k) ∨ ∃ k, k < s.outCap.toNat ∧ a = windowAddr s.outBase k

/-- `s` and `t` differ at most in bytes of M outside IN and OUT. -/
def State.sameInWindows (s t : State) : Prop :=
  t = { s with mem := t.mem } ∧ ∀ a, s.inWindows a → t.memRead a = s.memRead a

end Sys2Proof.Machine
end

