-- ==== Sys2Proof/Certificates/Slice0/Obligations.lean ====
section
/-! DEFINITION. The statements for the provers: encodings, the cursor and the tables, every instruction's completion with its
frame, errors, the host interface, the invariants and the rules about whole runs. -/

open Sys2Proof Sys2Proof.Machine

/-! ## Encoding -/

/-- Words written out from the encodings of R81, R82, R83, R85, R88, R94, R95 and R97 decode to what they stand for: byte 05 as
a block header (final, BTYPE 2), byte 03 as a header with its block type (BLK_FIXED), LEN 2 with NLEN FFFD after the pad, P3's
DYN_HEADER, P3's code-length symbol 17 with extra bits 111, literal 'A', EOB and LEN265 +1 with the fixed codes, two filter bytes,
three command words with operands, and the sixteen opcodes. -/
def Obligations.WrittenOutWordsDecode : Prop :=
  decode bitListSource .blockHeader tableCtx { pos := 0, bits := fieldBits 8 0x05 } =
      .ok (.blockHeader 1 2, { pos := 3, bits := [false, false, false, false, false] }) ∧
    decode bitListSource .blockType tableCtx { pos := 0, bits := fieldBits 8 0x03 } =
      .ok (.blkFixed 1, { pos := 3, bits := [false, false, false, false, false] }) ∧
    decode bitListSource .storedHeader tableCtx
        { pos := 3, bits := [false, false, false, false, false] ++ fieldBits 16 0x0002 ++ fieldBits 16 0xFFFD } =
      .ok (.storedHeader 2 0xFFFD, { pos := 40, bits := [] }) ∧
    decode bitListSource .dynHeader tableCtx
        { pos := 3, bits := [true, true, false, false, false, true, true, false, false, false, false, true, true, true] } =
      .ok (.dynHeader 3 3 14, { pos := 17, bits := [] }) ∧
    decode bitListSource .clSymbol
        { tableCtx with clen := build (fun _ => 0) 19 [3, 3, 3, 3, 3, 0, 0, 0, 0, 0, 0, 0, 0, 0, 0, 0, 3, 3, 3] }
        { pos := 94, bits := [true, true, false, true, true, true] } =
      .ok (.clRepeatZero3 7, { pos := 100, bits := [] }) ∧
    decode bitListSource .litLen tableCtx { pos := 0, bits := [false, true, true, true, false, false, false, true] } =
      .ok (.lit 0x41, { pos := 8, bits := [] }) ∧
    decode bitListSource .litLen tableCtx { pos := 0, bits := [false, false, false, false, false, false, false] } =
      .ok (.eob, { pos := 7, bits := [] }) ∧
    decode bitListSource .litLen tableCtx { pos := 0, bits := [false, false, false, true, false, false, true, true] } =
      .ok (.len265 1, { pos := 8, bits := [] }) ∧
    decode bitListSource .defilterRow tableCtx { pos := 0, bits := fieldBits 8 0x04 } = .ok (.ftPaeth, { pos := 8, bits := [] }) ∧
    decode bitListSource .defilterRow tableCtx { pos := 0, bits := fieldBits 8 0xFF } =
      .ok (.ftReserved 0xFF, { pos := 8, bits := [] }) ∧
    decodeCommand 0x00000309 = .bitsRead 3 ∧ decodeCommand 0x00020003 = .filter 2 ∧ decodeCommand 0x00000027 = .huffBuild 2 ∧
    (List.range 16).map (fun op => decodeCommand (BitVec.ofNat 32 op)) =
      [.nop, .inflate, .defilter, .filter 0, .crcReset, .crcUpdate, .crcCheck, .huffBuild 0, .huffDecode 0, .bitsRead 0, .bitsAlign,
        .bitsReset, .cmdReservedC, .cmdReservedD, .cmdReservedE, .clear]

/-- Decoding the encoding of a well-formed instruction gives it back, with every operand at every value the encoding admits,
for whatever tables the codes come from (R80 to R97, R112, R114). -/
def Obligations.DecodeEncodeRoundTrip : Prop :=
  ∀ (c : Ctx) (pos : Nat) (i : Instr) (bits rest : List Bool), i.wf = true → encode c pos i = some bits →
    decode bitListSource (formatOf i) c { pos := pos, bits := bits ++ rest } =
      .ok (i, { pos := pos + bits.length, bits := rest })

/-- Every well-formed instruction has an encoding (R80, R90 to R95), in a context whose tables give its symbol a code. -/
def Obligations.EveryInstructionEncodes : Prop :=
  ∀ i : Instr, i.wf = true → ∃ (c : Ctx) (bits : List Bool), encode c 0 i = some bits

/-- A CMD word means what its four fields say; the other bits are ignored (R21, R88). -/
def Obligations.CommandBitsOutsideFieldsIgnored : Prop :=
  ∀ w v : Word, w &&& 0x00073F3F = v &&& 0x00073F3F → decodeCommand w = decodeCommand v

/-! ## Huffman tables -/

/-- Build writes the counts of the lengths and lists the symbols of nonzero length, sorted by length and then by index (R110,
R111); the entries past them are `unset`'s. The machine builds with free values there (U5; notes/assumptions/22.md). -/
def Obligations.BuildSortsSymbols : Prop :=
  ∀ (unset : Nat → BitVec 9) (cap : Nat) (lens : List Nat), (∀ l ∈ lens, l ≤ 15) → lens.length ≤ cap → lens.length < 512 →
    (build unset cap lens).counts =
        (List.range 16).map (fun L => if L = 0 then 0 else BitVec.ofNat 16 (lens.count L)) ∧
      (build unset cap lens).n = BitVec.ofNat 9 lens.length ∧
      (build unset cap lens).symbols =
        ((List.range 15).flatMap fun k =>
            ((List.range lens.length).filter fun sym => lens.getD sym 0 = k + 1).map (BitVec.ofNat 9)) ++
          ((List.range cap).map unset).drop (lens.countP fun l => l ≠ 0) ∧
      ∀ (s : State) (tbl : BitVec 2),
        s.built tbl lens =
          build (Config.free 9 (if tbl = 0 then .litSymbol else if tbl = 1 then .distSymbol else .clenSymbol) s.tick)
            (if tbl = 0 then 288 else if tbl = 1 then 32 else 19) lens

/-- The tables of a fixed block (R122), whatever stands in the two distance entries past the counts. -/
def Obligations.FixedTablesAsBuilt : Prop :=
  ∀ unset : Nat → BitVec 9,
    build unset 288 fixedLitLens = fixedLit ∧
      (build unset 32 fixedDistLens).counts = [0, 0, 0, 0, 0, 30, 0, 0, 0, 0, 0, 0, 0, 0, 0, 0] ∧
      (build unset 32 fixedDistLens).n = 30 ∧
      (build unset 32 fixedDistLens).symbols = symbolRun 0 30 ++ [unset 30, unset 31]

/-- The fixed-block codes (R97): each of the five rows of its table, decoded by the walker. -/
def Obligations.FixedBlockCodes : Prop :=
  ∀ (unset : Nat → BitVec 9) (draw pos : Nat) (rest : List Bool),
    (∀ sym, sym < 288 →
      let code :=
        if sym ≤ 143 then codeBits 8 (0b00110000 + sym)
        else if sym ≤ 255 then codeBits 9 (0b110010000 + (sym - 144))
        else if sym ≤ 279 then codeBits 7 (sym - 256)
        else codeBits 8 (0b11000000 + (sym - 280))
      decodeSym bitListSource (build unset 288 fixedLitLens) draw { pos := pos, bits := code ++ rest } =
        .ok (BitVec.ofNat 9 sym, { pos := pos + code.length, bits := rest })) ∧
    ∀ d, d < 30 →
      decodeSym bitListSource (build unset 32 fixedDistLens) draw { pos := pos, bits := codeBits 5 d ++ rest } =
        .ok (BitVec.ofNat 9 d, { pos := pos + 5, bits := rest })

/-- A walk over a built table reads at most 15 bits and gives a symbol of nonzero length, so it reads only what Build wrote; a
walk that matches nothing has read 15 bits, and one that runs out of bits had fewer (R114, R115, R116). -/
def Obligations.WalkReadsOnlyBuiltEntries : Prop :=
  ∀ (unset : Nat → BitVec 9) (cap : Nat) (lens : List Nat) (draw : Nat) (x : BitList), (∀ l ∈ lens, l ≤ 15) →
    lens.length ≤ cap → lens.length < 512 →
    match decodeSym bitListSource (build unset cap lens) draw x with
    | .ok (sym, y) =>
      sym.toNat < lens.length ∧ lens.getD sym.toNat 0 ≠ 0 ∧ y.pos = x.pos + lens.getD sym.toNat 0 ∧
        y.bits = x.bits.drop (lens.getD sym.toNat 0)
    | .error .huffNoMatch => 15 ≤ x.bits.length
    | .error .truncated => x.bits.length < 15
    | .error .noSuchSymbol => False

/-! ## The bit cursor -/

/-- ReadBits on bp (R104): when `bp + n ≤ 8 * IN_LEN` it returns the `n` stream bits from bp, first bit lowest, and advances bp
by `n`; otherwise it raises TRUNCATED. AlignToByte moves bp to the next multiple of 8. -/
def Obligations.ReadBitsReadsStream : Prop :=
  ∀ (s : State) (n : Nat), s.cursorOk → 1 ≤ n → n ≤ 32 →
    (s.bp + n ≤ 8 * s.inLen.toNat →
      ∃ t, readBits n s = some (bitsValue (s.streamBits s.bp n), t) ∧ t.bp = s.bp + n ∧ t.cursorOk ∧ s.cursorOnly t) ∧
    (8 * s.inLen.toNat < s.bp + n → readBits n s = none) ∧
    (alignToByte s).bp = 8 * ((s.bp + 7) / 8)

/-- The machine's cursor and a plain bit string are read alike: decoding at the cursor gives the instruction that decoding the
rest of the stream gives, and leaves the cursor where that leaves the bit string (R80, R104). -/
def Obligations.CursorDecodesTheStream : Prop :=
  ∀ (elem : Elem) (c : Ctx) (s : State), s.cursorOk →
    match decode bitListSource elem c s.rest with
    | .error e => decode cursorSource elem c s = .error e
    | .ok (i, y) => ∃ t, decode cursorSource elem c s = .ok (i, t) ∧ t.rest = y ∧ t.cursorOk ∧ s.cursorOnly t

/-! ## A step runs the decoded instruction -/

/-- ENGINE's turn runs the instruction that is next (R11, R130, R240, R248, R270, R271): the element at bp and, when it has a
second part, that part; the row's filter type; the accepted command word. An element of INFLATE whose fetch fails raises TRUNCATED
or HUFF_NO_MATCH (R80, R101, R114), in its first part and in its second. The step adds the element's start, the sequencer's phase
and the count of steps; the fields eltStart and pending are the model's (notes/assumptions/6.md). -/
def Obligations.StepRunsDecodedInstruction : Prop :=
  (∀ s : State, s.state = .busy → s.moves = [] →
    (∀ elem, s.phase = .run → cmdOp s.cmdl = 1 → s.pending = .none → elemOf s.st = some elem →
      (∀ i t, decode cursorSource elem (markStart s).ctx (markStart s) = .ok (i, t) →
        step s = andThen (andThen (exec i t) continueElement) fun u => .next (tickOn u)) ∧
      (decode cursorSource elem (markStart s).ctx (markStart s) = .error .truncated →
        step s = .next (tickOn (raiseInflate .truncated (markStart s)))) ∧
      (decode cursorSource elem (markStart s).ctx (markStart s) = .error .huffNoMatch →
        step s = .next (tickOn (raiseInflate .huffNoMatch (markStart s))))) ∧
    (∀ i t len, s.phase = .run → cmdOp s.cmdl = 1 → s.pending = .distance len →
      decode cursorSource .distance s.ctx s = .ok (i, t) →
      step s = andThen (exec i t) fun u => .next (tickOn u)) ∧
    (s.phase = .run → cmdOp s.cmdl = 2 →
      step s = andThen (exec (decodeFilterType s.filterByte) s) fun u => .next (tickOn u)) ∧
    (s.phase = .run → cmdOp s.cmdl = 3 →
      step s = andThen (exec (decodeFilterRow s.sfbFt) s) fun u => .next (tickOn u)) ∧
    (s.phase = .start →
      step s = andThen (exec (decodeCommand s.cmdl) { s with phase := .run }) fun u => .next (tickOn u))) ∧
  ∀ u : State,
    (u.pending = .none → continueElement u = .next u) ∧
    (u.pending = .blockType → continueElement u = exec (decodeBlockType u.bfinal u.btype) u) ∧
    ∀ len, u.pending = .distance len →
      (∀ i t, decode cursorSource .distance u.ctx u = .ok (i, t) → continueElement u = exec i t) ∧
      (decode cursorSource .distance u.ctx u = .error .truncated → continueElement u = .next (raiseInflate .truncated u)) ∧
      (decode cursorSource .distance u.ctx u = .error .huffNoMatch → continueElement u = .next (raiseInflate .huffNoMatch u))

/-! ## Blocks -/

/-- BLOCK_HEADER with the block type it selects (R90, R131 to R135): BTYPE 0 to 3 are BLK_STORED, BLK_FIXED, BLK_DYNAMIC and
BLK_RESERVED. The first three complete with the registers their rules name; STORED_UNSUPPORTED and BTYPE_RESERVED are raised
otherwise. LENS and CL_LENS of a dynamic block are free until it writes them (R41; notes/assumptions/20.md). -/
def Obligations.BlockHeaderSelectsBlockType : Prop :=
  ∀ (s : State) (f : BitVec 1),
    (decodeBlockType f 0 = .blkStored f ∧ decodeBlockType f 1 = .blkFixed f ∧ decodeBlockType f 2 = .blkDynamic f ∧
      decodeBlockType f 3 = .blkReserved f) ∧
    (∀ t, exec (.blockHeader f t) s = .next { s with bfinal := f, btype := t, pending := .blockType } ∧
      continueElement { s with bfinal := f, btype := t, pending := .blockType } =
        exec (decodeBlockType f t) { s with bfinal := f, btype := t, pending := .blockType }) ∧
    (s.storedEn = true →
      exec (.blkStored f) s = .next { s with bfinal := f, btype := 0, pending := .none, st := .storedHdr }) ∧
    (s.storedEn = false → exec (.blkStored f) s = .next (raiseInflate .storedUnsupported s)) ∧
    exec (.blkFixed f) s =
      .next
        { s with
          bfinal := f, btype := 1, pending := .none, lit := s.built 0 fixedLitLens, dist := s.built 1 fixedDistLens
          st := .sym } ∧
    (∃ lens clLens,
      exec (.blkDynamic f) s =
        .next { s with bfinal := f, btype := 2, pending := .none, lens := lens, clLens := clLens, st := .dynHdr }) ∧
    exec (.blkReserved f) s = .next (raiseInflate .btypeReserved s)

/-- STORED_HEADER (R140, R82, R70): the pad bits are dropped unread, LEN and NLEN are read little-endian and then compared; a
mismatch raises, LEN 0 ends the block, any other LEN goes on to the payload. Too few bits are TRUNCATED. -/
def Obligations.StoredHeaderChecksLength : Prop :=
  (∀ (c : Ctx) (pos : Nat) (pad rest : List Bool) (l0 l1 n0 n1 : Byte), pad.length = padLength pos →
    decode bitListSource .storedHeader c
        { pos := pos
          bits := pad ++ (fieldBits 8 l0.toNat ++ (fieldBits 8 l1.toNat ++
            (fieldBits 8 n0.toNat ++ (fieldBits 8 n1.toNat ++ rest)))) } =
      .ok (.storedHeader (l1 ++ l0) (n1 ++ n0), { pos := pos + padLength pos + 32, bits := rest })) ∧
  (∀ (c : Ctx) (x : BitList), x.bits.length < padLength x.pos + 32 →
    decode bitListSource .storedHeader c x = .error .truncated) ∧
  ∀ (s : State) (len nlen : BitVec 16),
    (len ≠ ~~~nlen → exec (.storedHeader len nlen) s = .next (raiseInflate .lenNlenMismatch s)) ∧
    (len = ~~~nlen → len ≠ 0 → exec (.storedHeader len nlen) s = .next { s with storedRem := len, st := .storedByte }) ∧
    (len = ~~~nlen → len = 0 → s.bfinal = 1 →
      exec (.storedHeader len nlen) s = .next { s with storedRem := 0, st := .idle, state := .done }) ∧
    (len = ~~~nlen → len = 0 → s.bfinal = 0 →
      exec (.storedHeader len nlen) s = .next { s with storedRem := 0, st := .hdr })

/-- STORED_BYTE and LIT emit one byte (R138, R141, R160): OUT[OUT_LEN] is written, OUT_LEN counts on, no other byte of M changes;
a stored byte counts STORED_REM down and the last one ends the block. A full OUT raises OUT_OVERFLOW. EOB ends the block (R161):
the final block completes the command, another is followed by a block header (R139). -/
def Obligations.LiteralsAndEndOfBlock : Prop :=
  ∀ (s : State) (b : Byte),
    (s.outLen.toNat < s.outCap.toNat →
      (∃ t, exec (.lit b) s = .next t ∧ t.outByte s.outLen.toNat = b ∧ s.outOnly t s.outLen.toNat 1 ∧
        t = { s with mem := t.mem, outLen := s.outLen + 1, st := .sym }) ∧
      ∃ t, exec (.storedByte b) s = .next t ∧ t.outByte s.outLen.toNat = b ∧ s.outOnly t s.outLen.toNat 1 ∧
        t =
          { s with
            mem := t.mem, outLen := s.outLen + 1, storedRem := s.storedRem - 1
            st := if s.storedRem = 1 then (if s.bfinal = 1 then .idle else .hdr) else s.st
            state := if s.storedRem = 1 ∧ s.bfinal = 1 then .done else s.state }) ∧
    (s.outLen = s.outCap →
      exec (.lit b) s = .next (raiseInflate .outOverflow s) ∧
        exec (.storedByte b) s = .next (raiseInflate .outOverflow s)) ∧
    (s.bfinal = 1 → exec .eob s = .next { s with st := .idle, state := .done }) ∧
    (s.bfinal = 0 → exec .eob s = .next { s with st := .hdr })

/-- DYN_HEADER (R146, R83): the three counts are the fields plus 257, 1 and 4; COUNTS_INVALID is raised exactly when
STRICT_COUNTS is 1 and a count is too large. -/
def Obligations.DynamicHeaderCounts : Prop :=
  ∀ (s : State) (a b : BitVec 5) (c : BitVec 4),
    (¬(s.strictCounts = true ∧ (286 < a.toNat + 257 ∨ 30 < b.toNat + 1)) →
      ∃ t, exec (.dynHeader a b c) s = .next t ∧ t.hlit.toNat = a.toNat + 257 ∧ t.hdist.toNat = b.toNat + 1 ∧
        t.hclen.toNat = c.toNat + 4 ∧ t = { s with hlit := t.hlit, hdist := t.hdist, hclen := t.hclen, st := .dynCll }) ∧
    (s.strictCounts = true → 286 < a.toNat + 257 ∨ 30 < b.toNat + 1 →
      exec (.dynHeader a b c) s = .next (raiseInflate .countsInvalid s))

/-- DYN_CL_LENGTHS (R147): CL_LENS[CL_ORDER[i]] is the i-th length, every other entry is 0, and CLEN is built from them. -/
def Obligations.CodeLengthCodeLengths : Prop :=
  ∀ (s : State) (lens : List (BitVec 3)), lens.length ≤ 19 →
    ∃ t, exec (.dynClLengths lens) s = .next t ∧ t.clLens.length = 19 ∧
      (∀ i, i < 19 →
        t.clLens.getD ([16, 17, 18, 0, 8, 7, 9, 6, 10, 5, 11, 4, 12, 3, 13, 2, 14, 1, 15].getD i 0) 0 = lens.getD i 0) ∧
      t.clen = s.built 2 (t.clLens.map BitVec.toNat) ∧
      t = { s with clLens := t.clLens, clen := t.clen, lensIdx := 0, st := .dynCl }

/-- CL_LEN writes one length, CL_REPEAT_PREV 3 to 6 copies of the length before, CL_REPEAT_ZERO_3 3 to 10 zeros and
CL_REPEAT_ZERO_11 11 to 138 zeros, when they fit HLIT + HDIST; the symbol that completes the lengths builds LIT and DIST and goes
to the symbol loop. A run that does not fit raises REPEAT_OVERFLOW, a repeat with no length before it REPEAT_NO_PREVIOUS
(R149 to R154). -/
def Obligations.CodeLengthSymbols : Prop :=
  ∀ s : State, s.lensTotal ≤ s.lens.length → s.lensTotal ≤ 320 →
    (∀ l, s.lensIdx.toNat < s.lensTotal → ∃ t, exec (.clLen l) s = .next t ∧ runWritten l 1 s t) ∧
    (∀ e : BitVec 2, s.lensIdx ≠ 0 → s.lensIdx.toNat + (3 + e.toNat) ≤ s.lensTotal →
      ∃ t, exec (.clRepeatPrev e) s = .next t ∧
        runWritten (s.lens.getD (s.lensIdx.toNat - 1) 0) (3 + e.toNat) s t) ∧
    (∀ e : BitVec 3, s.lensIdx.toNat + (3 + e.toNat) ≤ s.lensTotal →
      ∃ t, exec (.clRepeatZero3 e) s = .next t ∧ runWritten 0 (3 + e.toNat) s t) ∧
    (∀ e : BitVec 7, s.lensIdx.toNat + (11 + e.toNat) ≤ s.lensTotal →
      ∃ t, exec (.clRepeatZero11 e) s = .next t ∧ runWritten 0 (11 + e.toNat) s t) ∧
    (∀ e : BitVec 2, s.lensIdx = 0 → exec (.clRepeatPrev e) s = .next (raiseInflate .repeatNoPrevious s)) ∧
    (∀ e : BitVec 2, s.lensIdx ≠ 0 → s.lensTotal < s.lensIdx.toNat + (3 + e.toNat) →
      exec (.clRepeatPrev e) s = .next (raiseInflate .repeatOverflow s)) ∧
    (∀ e : BitVec 3, s.lensTotal < s.lensIdx.toNat + (3 + e.toNat) →
      exec (.clRepeatZero3 e) s = .next (raiseInflate .repeatOverflow s)) ∧
    ∀ e : BitVec 7, s.lensTotal < s.lensIdx.toNat + (11 + e.toNat) →
      exec (.clRepeatZero11 e) s = .next (raiseInflate .repeatOverflow s)

/-! ## Length and distance codes -/

/-- LEN257 to LEN264 and LEN285 (R170 to R177, R198): code, no extra bits, and length. -/
def Obligations.LengthCodesWithoutExtraBits : Prop :=
  lengthRule (codeBits 7 0b0000001) 0 3 (fun _ => .len257) ∧ lengthRule (codeBits 7 0b0000010) 0 4 (fun _ => .len258) ∧
    lengthRule (codeBits 7 0b0000011) 0 5 (fun _ => .len259) ∧ lengthRule (codeBits 7 0b0000100) 0 6 (fun _ => .len260) ∧
    lengthRule (codeBits 7 0b0000101) 0 7 (fun _ => .len261) ∧ lengthRule (codeBits 7 0b0000110) 0 8 (fun _ => .len262) ∧
    lengthRule (codeBits 7 0b0000111) 0 9 (fun _ => .len263) ∧ lengthRule (codeBits 7 0b0001000) 0 10 (fun _ => .len264) ∧
    lengthRule (codeBits 8 0b11000101) 0 258 (fun _ => .len285)

/-- LEN265 to LEN276 (R178 to R189): code, one to three extra bits, and length. -/
def Obligations.LengthCodes265To276 : Prop :=
  lengthRule (codeBits 7 0b0001001) 1 11 (fun e => .len265 (BitVec.ofNat 1 e)) ∧
    lengthRule (codeBits 7 0b0001010) 1 13 (fun e => .len266 (BitVec.ofNat 1 e)) ∧
    lengthRule (codeBits 7 0b0001011) 1 15 (fun e => .len267 (BitVec.ofNat 1 e)) ∧
    lengthRule (codeBits 7 0b0001100) 1 17 (fun e => .len268 (BitVec.ofNat 1 e)) ∧
    lengthRule (codeBits 7 0b0001101) 2 19 (fun e => .len269 (BitVec.ofNat 2 e)) ∧
    lengthRule (codeBits 7 0b0001110) 2 23 (fun e => .len270 (BitVec.ofNat 2 e)) ∧
    lengthRule (codeBits 7 0b0001111) 2 27 (fun e => .len271 (BitVec.ofNat 2 e)) ∧
    lengthRule (codeBits 7 0b0010000) 2 31 (fun e => .len272 (BitVec.ofNat 2 e)) ∧
    lengthRule (codeBits 7 0b0010001) 3 35 (fun e => .len273 (BitVec.ofNat 3 e)) ∧
    lengthRule (codeBits 7 0b0010010) 3 43 (fun e => .len274 (BitVec.ofNat 3 e)) ∧
    lengthRule (codeBits 7 0b0010011) 3 51 (fun e => .len275 (BitVec.ofNat 3 e)) ∧
    lengthRule (codeBits 7 0b0010100) 3 59 (fun e => .len276 (BitVec.ofNat 3 e))

/-- LEN277 to LEN284 (R190 to R197): code, four or five extra bits, and length. -/
def Obligations.LengthCodes277To284 : Prop :=
  lengthRule (codeBits 7 0b0010101) 4 67 (fun e => .len277 (BitVec.ofNat 4 e)) ∧
    lengthRule (codeBits 7 0b0010110) 4 83 (fun e => .len278 (BitVec.ofNat 4 e)) ∧
    lengthRule (codeBits 7 0b0010111) 4 99 (fun e => .len279 (BitVec.ofNat 4 e)) ∧
    lengthRule (codeBits 8 0b11000000) 4 115 (fun e => .len280 (BitVec.ofNat 4 e)) ∧
    lengthRule (codeBits 8 0b11000001) 5 131 (fun e => .len281 (BitVec.ofNat 5 e)) ∧
    lengthRule (codeBits 8 0b11000010) 5 163 (fun e => .len282 (BitVec.ofNat 5 e)) ∧
    lengthRule (codeBits 8 0b11000011) 5 195 (fun e => .len283 (BitVec.ofNat 5 e)) ∧
    lengthRule (codeBits 8 0b11000100) 5 227 (fun e => .len284 (BitVec.ofNat 5 e))

/-- DIST0 to DIST9 (R200 to R209): code, extra bits, distance and copy. -/
def Obligations.DistanceCodes0To9 : Prop :=
  distanceCodeRule (codeBits 5 0b00000) 0 1 (fun _ => .dist0) ∧ distanceCodeRule (codeBits 5 0b00001) 0 2 (fun _ => .dist1) ∧
    distanceCodeRule (codeBits 5 0b00010) 0 3 (fun _ => .dist2) ∧ distanceCodeRule (codeBits 5 0b00011) 0 4 (fun _ => .dist3) ∧
    distanceCodeRule (codeBits 5 0b00100) 1 5 (fun e => .dist4 (BitVec.ofNat 1 e)) ∧
    distanceCodeRule (codeBits 5 0b00101) 1 7 (fun e => .dist5 (BitVec.ofNat 1 e)) ∧
    distanceCodeRule (codeBits 5 0b00110) 2 9 (fun e => .dist6 (BitVec.ofNat 2 e)) ∧
    distanceCodeRule (codeBits 5 0b00111) 2 13 (fun e => .dist7 (BitVec.ofNat 2 e)) ∧
    distanceCodeRule (codeBits 5 0b01000) 3 17 (fun e => .dist8 (BitVec.ofNat 3 e)) ∧
    distanceCodeRule (codeBits 5 0b01001) 3 25 (fun e => .dist9 (BitVec.ofNat 3 e))

/-- DIST10 to DIST19 (R210 to R219): code, extra bits, distance and copy. -/
def Obligations.DistanceCodes10To19 : Prop :=
  distanceCodeRule (codeBits 5 0b01010) 4 33 (fun e => .dist10 (BitVec.ofNat 4 e)) ∧
    distanceCodeRule (codeBits 5 0b01011) 4 49 (fun e => .dist11 (BitVec.ofNat 4 e)) ∧
    distanceCodeRule (codeBits 5 0b01100) 5 65 (fun e => .dist12 (BitVec.ofNat 5 e)) ∧
    distanceCodeRule (codeBits 5 0b01101) 5 97 (fun e => .dist13 (BitVec.ofNat 5 e)) ∧
    distanceCodeRule (codeBits 5 0b01110) 6 129 (fun e => .dist14 (BitVec.ofNat 6 e)) ∧
    distanceCodeRule (codeBits 5 0b01111) 6 193 (fun e => .dist15 (BitVec.ofNat 6 e)) ∧
    distanceCodeRule (codeBits 5 0b10000) 7 257 (fun e => .dist16 (BitVec.ofNat 7 e)) ∧
    distanceCodeRule (codeBits 5 0b10001) 7 385 (fun e => .dist17 (BitVec.ofNat 7 e)) ∧
    distanceCodeRule (codeBits 5 0b10010) 8 513 (fun e => .dist18 (BitVec.ofNat 8 e)) ∧
    distanceCodeRule (codeBits 5 0b10011) 8 769 (fun e => .dist19 (BitVec.ofNat 8 e))

/-- DIST20 to DIST29 (R220 to R229): code, extra bits, distance and copy. -/
def Obligations.DistanceCodes20To29 : Prop :=
  distanceCodeRule (codeBits 5 0b10100) 9 1025 (fun e => .dist20 (BitVec.ofNat 9 e)) ∧
    distanceCodeRule (codeBits 5 0b10101) 9 1537 (fun e => .dist21 (BitVec.ofNat 9 e)) ∧
    distanceCodeRule (codeBits 5 0b10110) 10 2049 (fun e => .dist22 (BitVec.ofNat 10 e)) ∧
    distanceCodeRule (codeBits 5 0b10111) 10 3073 (fun e => .dist23 (BitVec.ofNat 10 e)) ∧
    distanceCodeRule (codeBits 5 0b11000) 11 4097 (fun e => .dist24 (BitVec.ofNat 11 e)) ∧
    distanceCodeRule (codeBits 5 0b11001) 11 6145 (fun e => .dist25 (BitVec.ofNat 11 e)) ∧
    distanceCodeRule (codeBits 5 0b11010) 12 8193 (fun e => .dist26 (BitVec.ofNat 12 e)) ∧
    distanceCodeRule (codeBits 5 0b11011) 12 12289 (fun e => .dist27 (BitVec.ofNat 12 e)) ∧
    distanceCodeRule (codeBits 5 0b11100) 13 16385 (fun e => .dist28 (BitVec.ofNat 13 e)) ∧
    distanceCodeRule (codeBits 5 0b11101) 13 24577 (fun e => .dist29 (BitVec.ofNat 13 e))

/-- The reserved encodings raise, and have no other effect (R96, R135, R163, R164, R247, R254, R288): the reserved symbols in
INFLATE, a row's filter type byte of 5 to 255 at the byte's IN offset, an FTYPE of 5 to 7 after the window checks, the reserved
opcodes. -/
def Obligations.ReservedEncodingsRaise : Prop :=
  ∀ s : State,
    (∀ i : Instr, i = .llReserved286 ∨ i = .llReserved287 →
      exec i s = .next (raiseInflate .litLenSymbolInvalid s)) ∧
    (∀ i : Instr, i = .distReserved30 ∨ i = .distReserved31 → exec i s = .next (raiseInflate .distSymbolInvalid s)) ∧
    (∀ f, exec (.blkReserved f) s = .next (raiseInflate .btypeReserved s)) ∧
    (∀ t : Byte, exec (.ftReserved t) s =
      .next (raise .defilter .filterTypeInvalid (BitVec.ofNat 32 (s.sfbRow.toNat * (s.stride + 1)), 0) s)) ∧
    (∀ i : Instr, i = .filterFt5 ∨ i = .filterFt6 ∨ i = .filterFt7 →
      (s.windowsOk = true → exec i s = .next (raise .filter .filterTypeInvalid (0, 0) s)) ∧
        (s.windowsOk = false → exec i s = .next (raise .filter .argInvalid (0, 0) s))) ∧
    ∀ i : Instr, i = .cmdReservedC ∨ i = .cmdReservedD ∨ i = .cmdReservedE →
      exec i s = .next (raise .reserved .cmdReserved (0, 0) s)

/-- The ROM tables have no gaps (R167, R168): each base is the one before plus the values its extra bits cover. -/
def Obligations.LengthAndDistanceTablesHaveNoGaps : Prop :=
  (lbase 257 = 3 ∧ lbase 258 = 4 ∧ lbase 259 = 5 ∧ lbase 285 = 258 ∧ lext 285 = 0 ∧ lext 284 = 5 ∧
      lbase 284 + 31 = 258 ∧ (∀ s, 257 ≤ s → s ≤ 264 → lext s = 0) ∧ (∀ s, 257 ≤ s → s ≤ 285 → lext s ≤ 5) ∧
      ∀ s, 257 ≤ s → s ≤ 283 → lbase (s + 1) = lbase s + 2 ^ lext s) ∧
    dbase 0 = 1 ∧ dbase 1 = 2 ∧ dbase 2 = 3 ∧ dbase 29 = 24577 ∧ (∀ d, d ≤ 29 → dext d ≤ 13) ∧
    (∀ d, d ≤ 28 → dbase (d + 1) = dbase d + 2 ^ dext d) ∧ dbase 29 + 2 ^ dext 29 - 1 = 32768

/-- A whole match in one ENGINE step (R162, R86): when the stream at bp holds a length code with its extra bits and then a
distance code with its, the step reads exactly those bits and copies LBASE(sym) + e bytes from DBASE(d) + e2 back. -/
def Obligations.MatchInOneStep : Prop :=
  ∀ (s : State) (sym d e e2 : Nat) (y z : BitList), s.inflating → s.st = .sym → s.cursorOk →
    257 ≤ sym → sym ≤ 285 → e < 2 ^ lext sym → d < 30 → e2 < 2 ^ dext d →
    decode bitListSource .litLen s.ctx s.rest = .ok (litLenInstr sym e, y) →
    decode bitListSource .distance s.ctx y = .ok (distInstr d e2, z) →
    dbase d + e2 ≤ s.outLen.toNat → s.outLen.toNat + (lbase sym + e) ≤ s.outCap.toNat →
    ∃ t, engineStep s = .next t ∧ t.bp = z.pos ∧ t.outLen.toNat = s.outLen.toNat + (lbase sym + e) ∧
      t.produced = copyBytes (dbase d + e2) (lbase sym + e) s.produced ∧
      s.outOnly t s.outLen.toNat (lbase sym + e) ∧
      t =
        { s with
          inPos := t.inPos, bitCnt := t.bitCnt, bitBuf := t.bitBuf, mem := t.mem, outLen := t.outLen
          eltStart := s.bp }

/-- A copy whose source overlaps its target repeats a pattern of period `dist` (R165, R333): after the distance instruction each
byte of the match in OUT is the byte `dist` positions before it, byte `k` is the byte `k mod dist` of the last `dist` bytes before
the match, and the bytes before the match stay. -/
def Obligations.OverlappingCopyRepeats : Prop :=
  (∀ (s : State) (len d e : Nat), s.pending = .distance len → d < 30 → e < 2 ^ dext d →
    dbase d + e ≤ s.outLen.toNat → s.outLen.toNat + len ≤ s.outCap.toNat →
    ∃ t, exec (distInstr d e) s = .next t ∧
      (∀ k, k < s.outLen.toNat → t.outByte k = s.outByte k) ∧
      ∀ k, k < len →
        t.outByte (s.outLen.toNat + k) = t.outByte (s.outLen.toNat + k - (dbase d + e)) ∧
        t.outByte (s.outLen.toNat + k) = s.outByte (s.outLen.toNat - (dbase d + e) + k % (dbase d + e))) ∧
  ∀ (dist n : Nat) (l : List Byte), 1 ≤ dist → dist ≤ l.length →
    (copyBytes dist n l).take l.length = l ∧ (copyBytes dist n l).length = l.length + n ∧
      ∀ k, k < n → (copyBytes dist n l).getD (l.length + k) 0 = l.getD (l.length - dist + k % dist) 0

/-! ## The filter bank -/

/-- The DEFILTER rows of the five types (R240 to R245, R256, R257). -/
def Obligations.DefilterRowReconstructs : Prop :=
  defilterRule .ftNone (fun _ _ _ => 0) ∧ defilterRule .ftSub (fun a _ _ => a) ∧ defilterRule .ftUp (fun _ b _ => b) ∧
    defilterRule .ftAvg (fun a b _ => BitVec.ofNat 8 ((a.toNat + b.toNat) / 2)) ∧ defilterRule .ftPaeth predPaeth

/-- The FILTER rows of the five types (R248 to R253). -/
def Obligations.FilterRowPredicts : Prop :=
  filterRule .filterFt0 0 (fun _ _ _ => 0) ∧ filterRule .filterFt1 1 (fun a _ _ => a) ∧
    filterRule .filterFt2 2 (fun _ b _ => b) ∧
    filterRule .filterFt3 3 (fun a b _ => BitVec.ofNat 8 ((a.toNat + b.toNat) / 2)) ∧ filterRule .filterFt4 4 predPaeth

/-- PaethPredictor (R245) picks the one of a, b and c that lies nearest to a + b - c, over the integers, with ties broken in the
order a, b, c. -/
def Obligations.PaethPicksNearest : Prop :=
  ∀ a b c : Byte,
    let far := fun v : Byte => ((a.toNat : Int) + b.toNat - c.toNat - v.toNat).natAbs
    (far a ≤ far b → far a ≤ far c → predPaeth a b c = a) ∧
      (far b < far a → far b ≤ far c → predPaeth a b c = b) ∧
      (far c < far a → far c < far b → predPaeth a b c = c)

/-- The start of DEFILTER and FILTER (R246, R274, R275, R61, R62): the window checks, then SRC_SHORT, then DST_SHORT, over the
naturals; else row 0 is next, or with HEIGHT 0 the command is done with OUT_LEN 0. -/
def Obligations.RowCommandsStart : Prop :=
  ∀ s : State,
    (s.windowsOk = false →
      exec .defilter s = .next (raise .defilter .argInvalid (0, 0) s) ∧
        ∀ f, exec (.filter f) s = .next (raise .filter .argInvalid (0, 0) s)) ∧
    (s.windowsOk = true →
      (s.inLen.toNat < (4 * s.width.toNat + 1) * s.height.toNat →
        exec .defilter s = .next (raise .defilter .srcShort (0, 0) s)) ∧
      ((4 * s.width.toNat + 1) * s.height.toNat ≤ s.inLen.toNat → s.outCap.toNat < 4 * s.width.toNat * s.height.toNat →
        exec .defilter s = .next (raise .defilter .dstShort (0, 0) s)) ∧
      ((4 * s.width.toNat + 1) * s.height.toNat ≤ s.inLen.toNat → 4 * s.width.toNat * s.height.toNat ≤ s.outCap.toNat →
        exec .defilter s =
          .next (if s.height = 0 then { s with sfbRow := 0, outLen := 0, state := .done } else { s with sfbRow := 0 })) ∧
      ∀ f : BitVec 3, f.toNat ≤ 4 →
        (s.inLen.toNat < 4 * s.width.toNat * s.height.toNat →
          exec (.filter f) s = .next (raise .filter .srcShort (0, 0) s)) ∧
        (4 * s.width.toNat * s.height.toNat ≤ s.inLen.toNat →
          s.outCap.toNat < (4 * s.width.toNat + 1) * s.height.toNat →
          exec (.filter f) s = .next (raise .filter .dstShort (0, 0) s)) ∧
        (4 * s.width.toNat * s.height.toNat ≤ s.inLen.toNat →
          (4 * s.width.toNat + 1) * s.height.toNat ≤ s.outCap.toNat →
          exec (.filter f) s =
            .next
              (if s.height = 0 then { s with sfbFt := f, sfbRow := 0, outLen := 0, state := .done }
              else { s with sfbFt := f, sfbRow := 0 })))

/-- Filter round trip (R255): a FILTER command of any type runs to DONE in HEIGHT + 1 steps, and a DEFILTER of its output into
any window gives the raw image back. -/
def Obligations.FilterRoundTrip : Prop :=
  ∀ s : State, s.state = .busy → s.phase = .start → s.moves = [] → cmdOp s.cmdl = 3 → (cmdFtype s.cmdl).toNat ≤ 4 →
    s.windowsOk = true → s.stride * s.height.toNat ≤ s.inLen.toNat →
    (s.stride + 1) * s.height.toNat ≤ s.outCap.toNat →
    ∃ t, Host.Core.run core (s.height.toNat + 1) s = .next t ∧ t.state = .done ∧
      t.outLen.toNat = (s.stride + 1) * s.height.toNat ∧
      ∀ (base cap : Word) (w : Word), cmdOp w = 2 →
        let u : State := { acceptCommand w t with inBase := t.outBase, inLen := t.outLen, outBase := base, outCap := cap }
        u.windowsOk = true → s.stride * s.height.toNat ≤ cap.toNat →
        ∃ v, Host.Core.run core (s.height.toNat + 1) u = .next v ∧ v.state = .done ∧
          v.outLen.toNat = s.stride * s.height.toNat ∧
          ∀ k, k < s.stride * s.height.toNat → v.outByte k = s.inByte k

/-! ## The CRC engine -/

/-- Every entry of CRC_TABLE is its index passed through eight steps (R261). -/
def Obligations.CrcTableIsEightSteps : Prop :=
  crcTable.length = 256 ∧ ∀ n, n < 256 → crcTable.getD n 0 = crcEntry (BitVec.ofNat 32 n)

/-- CRC_UPDATE (R263, R264): CRC_STATE becomes U(CRC_STATE, IN) and the command is done; a window that wraps raises ARG_INVALID. -/
def Obligations.CrcUpdateRunsOverIn : Prop :=
  ∀ s : State,
    (s.inBase.toNat + s.inLen.toNat ≤ 2 ^ 32 →
      exec .crcUpdate s = .next { s with crcState := crcOver s.crcState s.inBytes, state := .done }) ∧
    (2 ^ 32 < s.inBase.toNat + s.inLen.toNat → exec .crcUpdate s = .next (raise .crcUpdate .argInvalid (0, 0) s))

/-- CRC_UPDATE over A and then over B leaves the CRC_STATE of one CRC_UPDATE over A ++ B (R263 (b)). -/
def Obligations.CrcUpdateIsIncremental : Prop :=
  ∀ (s : State) (a b : Word), s.inBase.toNat + a.toNat + b.toNat ≤ 2 ^ 32 → a.toNat + b.toNat < 2 ^ 32 →
    ∃ t u v,
      exec .crcUpdate { s with inLen := a } = .next t ∧
        exec .crcUpdate { s with crcState := t.crcState, inBase := s.inBase + a, inLen := b } = .next u ∧
        exec .crcUpdate { s with inLen := a + b } = .next v ∧ u.crcState = v.crcState

/-- CRC_CHECK (R265, R71): RESULT is the complement of CRC_STATE, CRC_MATCH says whether the first four bytes of IN, big-endian,
equal it, and the command is done either way; fewer than four bytes, or a window that wraps, raise ARG_INVALID. -/
def Obligations.CrcCheckCompares : Prop :=
  ∀ s : State,
    (s.inBase.toNat + s.inLen.toNat ≤ 2 ^ 32 → 4 ≤ s.inLen.toNat →
      exec .crcCheck s =
        .next
          { s with
            result := s.crcState ^^^ 0xFFFFFFFF
            crcMatch :=
              decide
                ((s.crcState ^^^ 0xFFFFFFFF).toNat =
                  (s.inByte 0).toNat * 2 ^ 24 + (s.inByte 1).toNat * 2 ^ 16 + (s.inByte 2).toNat * 2 ^ 8 +
                    (s.inByte 3).toNat)
            state := .done }) ∧
    (2 ^ 32 < s.inBase.toNat + s.inLen.toNat ∨ s.inLen.toNat < 4 →
      exec .crcCheck s = .next (raise .crcCheck .argInvalid (0, 0) s))

/-! ## The other commands -/

/-- NOP, CRC_RESET, BITS_ALIGN and BITS_RESET (R272, R262, R286, R287) complete in every state, with their rules' writes and no
other. -/
def Obligations.PlainCommandsComplete : Prop :=
  ∀ s : State,
    exec .nop s = .next { s with state := .done } ∧
      exec .crcReset s = .next { s with crcState := 0xFFFFFFFF, state := .done } ∧
      exec .bitsAlign s = .next { s with bitBuf := 0, bitCnt := 0, state := .done } ∧
      exec .bitsReset s = .next { s with inPos := 0, bitBuf := 0, bitCnt := 0, state := .done }

/-- The start of INFLATE (R273, R103, R271): the cursor, OUT_LEN and the DBD registers are 0 and a block header is next; windows
that wrap or overlap raise ARG_INVALID. -/
def Obligations.InflateStarts : Prop :=
  ∀ s : State,
    (s.windowsOk = true →
      exec .inflate s =
        .next
          { s with
            inPos := 0, bitBuf := 0, bitCnt := 0, outLen := 0, bfinal := 0, btype := 0, storedRem := 0, hlit := 0, hdist := 0
            hclen := 0, lensIdx := 0, st := .hdr }) ∧
    (s.windowsOk = false → exec .inflate s = .next (raise .inflate .argInvalid (0, 0) s))

/-- BITS_READ (R285): 1 to 32 bits of the stream at bp become RESULT, bp advances, and nothing else changes; other widths and a
window that wraps raise ARG_INVALID, a stream that is too short TRUNCATED at bp. The clauses about `cursorBits` need no cursor
invariant (R78, R101, R334): whatever the cursor was left as, the buffered bits come first and then the bits of IN as it is now,
from IN_BASE + IN_POS on. (Where a cursor left unspecified by an error has no bp, the position is free, notes/assumptions/13.md.) -/
def Obligations.BitsReadReturnsStreamBits : Prop :=
  ∀ (s : State) (n : BitVec 6),
    let truncated :=
      exec (.bitsRead n) s =
        .next (raise .bitsRead .truncated (BitVec.ofNat 32 (s.bp / 8), BitVec.ofNat 3 (s.bp % 8)) s)
    (s.inOk = false ∨ n.toNat = 0 ∨ 32 < n.toNat →
      exec (.bitsRead n) s = .next (raise .bitsRead .argInvalid (0, 0) s)) ∧
    (s.inOk = true → 1 ≤ n.toNat → n.toNat ≤ 32 →
      (s.cursorOk → s.bp + n.toNat ≤ 8 * s.inLen.toNat →
        ∃ t, exec (.bitsRead n) s = .next t ∧ t.result.toNat = bitsValue (s.streamBits s.bp n.toNat) ∧
          t.bp = s.bp + n.toNat ∧ t.cursorOk ∧
          t = { s with inPos := t.inPos, bitCnt := t.bitCnt, bitBuf := t.bitBuf, result := t.result, state := .done }) ∧
      (s.cursorOk → 8 * s.inLen.toNat < s.bp + n.toNat → truncated) ∧
      (n.toNat ≤ s.bitCnt.toNat →
        exec (.bitsRead n) s =
          .next
            { s with
              result := BitVec.ofNat 32 (s.bitBuf.toNat % 2 ^ n.toNat), bitBuf := s.bitBuf >>> n.toNat
              bitCnt := s.bitCnt - n, state := .done }) ∧
      (s.bitCnt.toNat < n.toNat → s.inLen.toNat ≤ s.inPos.toNat → s.bitCnt.toNat ≤ 8 * s.inPos.toNat → truncated) ∧
      (n.toNat ≤ s.cursorBits.length →
        ∃ t, exec (.bitsRead n) s = .next t ∧ t.result.toNat = bitsValue (s.cursorBits.take n.toNat) ∧
          t.cursorBits = s.cursorBits.drop n.toNat ∧
          t = { s with inPos := t.inPos, bitCnt := t.bitCnt, bitBuf := t.bitBuf, result := t.result, state := .done }) ∧
      (s.cursorBits.length < n.toNat →
        (s.bitCnt.toNat ≤ 8 * s.inPos.toNat → truncated) ∧
          ∃ pos, exec (.bitsRead n) s = .next (raise .bitsRead .truncated pos s)))

/-- HUFF_DECODE (R284): the next symbol of the table becomes RESULT and the cursor moves past its code; TBL 3 and a window that
wraps raise ARG_INVALID, a walk that fails raises at bp. The second clause needs no cursor invariant (R78, R334): whatever the
cursor was left as, the walk reads the buffered bits and then the bits of IN as it is now, from IN_BASE + IN_POS on. (Where a
cursor left unspecified by an error has no bp, the position is free, notes/assumptions/13.md.) -/
def Obligations.HuffDecodeReturnsSymbol : Prop :=
  ∀ (s : State) (tbl : BitVec 2),
    let here : ErrPos := (BitVec.ofNat 32 (s.bp / 8), BitVec.ofNat 3 (s.bp % 8))
    let fails := fun d =>
      (s.bitCnt.toNat ≤ 8 * s.inPos.toNat → exec (.huffDecode tbl) s = .next (raise .huffDecode d here s)) ∧
        ∃ pos, exec (.huffDecode tbl) s = .next (raise .huffDecode d pos s)
    (s.cursorOk → s.inOk = true → tbl ≠ 3 →
      match decodeSym bitListSource (s.table tbl) s.tick s.rest with
      | .ok (sym, y) =>
        ∃ t, exec (.huffDecode tbl) s = .next t ∧ t.result = sym.setWidth 32 ∧ t.rest = y ∧ t.cursorOk ∧
          t = { s with inPos := t.inPos, bitCnt := t.bitCnt, bitBuf := t.bitBuf, result := t.result, state := .done }
      | .error .huffNoMatch => exec (.huffDecode tbl) s = .next (raise .huffDecode .huffNoMatch here s)
      | .error .truncated => exec (.huffDecode tbl) s = .next (raise .huffDecode .truncated here s)
      | .error .noSuchSymbol => False) ∧
    (s.inOk = true → tbl ≠ 3 →
      match decodeSym bitListSource (s.table tbl) s.tick { pos := 0, bits := s.cursorBits } with
      | .ok (sym, y) =>
        ∃ t, exec (.huffDecode tbl) s = .next t ∧ t.result = sym.setWidth 32 ∧ t.cursorBits = y.bits ∧
          t = { s with inPos := t.inPos, bitCnt := t.bitCnt, bitBuf := t.bitBuf, result := t.result, state := .done }
      | .error .huffNoMatch => fails .huffNoMatch
      | .error .truncated => fails .truncated
      | .error .noSuchSymbol => False) ∧
    (s.inOk = false ∨ tbl = 3 → exec (.huffDecode tbl) s = .next (raise .huffDecode .argInvalid (0, 0) s))

/-- HUFF_BUILD (R283): the table TBL names is built over HUFF_N length bytes and RESULT counts the nonzero ones; the checks come
in the rule's order. -/
def Obligations.HuffBuildBuildsTable : Prop :=
  ∀ (s : State) (tbl : BitVec 2),
    let n := s.huffN.toNat
    let cap := if tbl = 0 then 288 else if tbl = 1 then 32 else 19
    let lens := (List.range n).map fun i => (s.inByte i).toNat
    let argFails := exec (.huffBuild tbl) s = .next (raise (.huffBuild tbl) .argInvalid (0, 0) s)
    (s.inOk = true → tbl ≠ 3 → n ≤ cap → n ≤ s.inLen.toNat → (∀ l ∈ lens, l ≤ 15) →
      ∃ t, exec (.huffBuild tbl) s = .next t ∧ t.table tbl = s.built tbl lens ∧
        t.result.toNat = (lens.filter fun l => l ≠ 0).length ∧
        t =
          { s with
            lit := if tbl = 0 then t.lit else s.lit, dist := if tbl = 1 then t.dist else s.dist
            clen := if tbl = 2 then t.clen else s.clen, result := t.result, state := .done }) ∧
    (s.inOk = false ∨ tbl = 3 ∨ cap < n → argFails) ∧
    (s.inOk = true → tbl ≠ 3 → n ≤ cap → s.inLen.toNat < n →
      exec (.huffBuild tbl) s = .next (raise (.huffBuild tbl) .srcShort (0, 0) s)) ∧
    (s.inOk = true → tbl ≠ 3 → n ≤ cap → n ≤ s.inLen.toNat → (∃ l ∈ lens, 15 < l) → argFails)

/-- CLEAR (R289, R321) leaves ERROR or DONE for IDLE: it clears the error fields and registers, names itself in LAST_OP, and
changes nothing else. -/
def Obligations.ClearChangesOnlyStatus : Prop :=
  ∀ s : State,
    exec .clear s =
      .next { s with state := .idle, errClass := 0, errDetail := 0, lastOp := 0xF, errByte := 0, errBit := 0 }

/-! ## Errors -/

/-- What raising an error does (R300, R302, R306): STATUS, the class and detail, the position and DBD.ST are written, with the
detail numbers 1 to 17 and the classes of R302; what the command may write is unspecified, and every other register and every byte
of M outside OUT keeps its value. Which registers a failing command may write is the model's reading of R306 (notes/assumptions/3.md):
CRC_STATE is kept when CRC_UPDATE raises and CRC_MATCH when CRC_CHECK raises. Where OUT wraps, the bytes below OUT_BASE are kept,
which is the model's choice too (notes/assumptions/15.md). -/
def Obligations.RaiseWritesOnlyItsOwn : Prop :=
  (∀ (op : Op) (d : ErrDetail) (pos : ErrPos) (s : State),
    let t := raise op d pos s
    t.state = .error ∧ t.errDetail = d.code ∧ t.errClass = detailClass d.code ∧ t.errByte = pos.1 ∧ t.errBit = pos.2 ∧
      t.st = .idle ∧ errorKeeps op s t) ∧
  ∀ (op : Op) (pos : ErrPos) (s : State),
    let numbers := fun (d : ErrDetail) (n : BitVec 8) (c : BitVec 4) =>
      (raise op d pos s).errDetail = n ∧ (raise op d pos s).errClass = c
    numbers .truncated 1 4 ∧ numbers .btypeReserved 2 4 ∧ numbers .storedUnsupported 3 4 ∧ numbers .lenNlenMismatch 4 4 ∧
      numbers .huffNoMatch 5 4 ∧ numbers .litLenSymbolInvalid 6 4 ∧ numbers .distSymbolInvalid 7 4 ∧ numbers .distTooFar 8 4 ∧
      numbers .outOverflow 9 4 ∧ numbers .repeatNoPrevious 10 4 ∧ numbers .repeatOverflow 11 4 ∧ numbers .countsInvalid 12 4 ∧
      numbers .filterTypeInvalid 13 6 ∧ numbers .srcShort 14 7 ∧ numbers .dstShort 15 7 ∧ numbers .cmdReserved 16 7 ∧
      numbers .argInvalid 17 7

/-- An element of INFLATE that fails reports its own start (R305, R32, R301): ERR_BYTE is floor(bp / 8) and ERR_BIT bp mod 8 of
the state the step began in, and the class is CorruptDeflateStream. -/
def Obligations.InflateErrorAtElementStart : Prop :=
  ∀ s t : State, s.inflating → engineStep s = .next t → t.state = .error →
    t.errByte.toNat = s.bp / 8 ∧ t.errBit.toNat = s.bp % 8 ∧ t.errClass = 4 ∧ 1 ≤ t.errDetail ∧ t.errDetail ≤ 12 ∧
      t.st = .idle

/-! ## The host interface -/

/-- The register map as the host reads it when the block is not BUSY (R20 to R32): a host read returns the register and changes
nothing else, and STATUS has its fields at their places, with STATE 0 IDLE, 1 BUSY, 2 DONE and 3 ERROR (R23). What a read returns
is kept in the model's own field hostRead (notes/assumptions/12.md). -/
def Obligations.RegistersReadAsMapped : Prop :=
  ∀ (s : State) (i : BitVec 6),
    moveStep (.readReg i) s = .next { s with hostRead := s.regRead i } ∧
    (s.state ≠ .busy →
      s.regRead i =
        [0, s.statusWord, s.cfg.setWidth 32, s.inBase, s.inLen, s.outBase, s.outCap, s.width, s.height, s.huffN.setWidth 32,
          s.outLen, s.inPos, s.bitCnt.setWidth 32, s.result, s.crcState ^^^ 0xFFFFFFFF, s.errByte,
          s.errBit.setWidth 32].getD i.toNat 0) ∧
    s.statusWord.toNat =
      (match s.state with
        | .idle => 0
        | .busy => 1
        | .done => 2
        | .error => 3) +
        4 * s.crcMatch.toNat + 16 * s.errClass.toNat + 256 * s.errDetail.toNat + 65536 * s.lastOp.toNat

/-- Register access while BUSY (R33): every write is ignored, STATUS reads its value, another read-only register reads a free
value, and every other offset reads as it does at any time (R20: CMD 0, CFG and the operand registers their values, an unused offset
0); and a read-only register ignores a write at all times. -/
def Obligations.RegisterAccessRules : Prop :=
  ∀ (s : State) (i : BitVec 6) (v : Word),
    (s.state = .busy → moveStep (.writeReg i v) s = .next s) ∧
    (s.state = .busy → s.regRead 1 = s.statusWord) ∧
    (s.state = .busy → 10 ≤ i.toNat → i.toNat ≤ 16 → s.regRead i = Config.free 32 .busyRead s.tick i.toNat) ∧
    (s.state = .busy → i.toNat < 10 ∨ 16 < i.toNat →
      s.regRead i =
        [0, s.statusWord, s.cfg.setWidth 32, s.inBase, s.inLen, s.outBase, s.outCap, s.width, s.height,
          s.huffN.setWidth 32].getD i.toNat 0) ∧
    (i.toNat = 1 ∨ 10 ≤ i.toNat → moveStep (.writeReg i v) s = .next s)

/-- A write of an operand register when the block is not BUSY (R22, R24 to R27) changes that register, to the bits it keeps, and
nothing else. -/
def Obligations.OperandRegistersAreWritten : Prop :=
  ∀ (s : State) (v : Word), s.state ≠ .busy →
    moveStep (.writeReg 2 v) s = .next { s with cfg := v.extractLsb' 0 2 } ∧
      moveStep (.writeReg 3 v) s = .next { s with inBase := v } ∧
      moveStep (.writeReg 4 v) s = .next { s with inLen := v } ∧
      moveStep (.writeReg 5 v) s = .next { s with outBase := v } ∧
      moveStep (.writeReg 6 v) s = .next { s with outCap := v } ∧
      moveStep (.writeReg 7 v) s = .next { s with width := v } ∧
      moveStep (.writeReg 8 v) s = .next { s with height := v } ∧
      moveStep (.writeReg 9 v) s = .next { s with huffN := v.extractLsb' 0 9 }

/-- A CMD write (R270): IDLE and DONE accept every command but CLEAR, ERROR ignores it, CLEAR acts at once, BUSY ignores all. -/
def Obligations.CommandWrites : Prop :=
  ∀ (s : State) (w : Word),
    (s.state = .idle ∨ s.state = .done → cmdOp w ≠ 0xF →
      moveStep (.writeReg 0 w) s =
        .next
          { s with
            state := .busy, cmdl := w, lastOp := w.extractLsb' 0 4, errClass := 0, errDetail := 0, errByte := 0, errBit := 0
            phase := .start }) ∧
    (s.state ≠ .busy → cmdOp w = 0xF → moveStep (.writeReg 0 w) s = exec .clear s) ∧
    (s.state = .error → cmdOp w ≠ 0xF → moveStep (.writeReg 0 w) s = .next s) ∧
    (s.state = .busy → moveStep (.writeReg 0 w) s = .next s)

/-- Reset (R320, R50) in any state: every register takes its reset value and M stays as it is; the contents of LENS, CL_LENS and
the symbol lists are left open here, as R50 leaves them. Right after it STATUS reads 0, CFG reads 1 and every other register 0
(R322). -/
def Obligations.ResetGivesResetState : Prop :=
  ∀ (s : State) (ms : List Move), s.moves = .reset :: ms →
    ∃ t, step s = .next t ∧ t.mem = s.mem ∧ t.moves = ms ∧
      t =
        { State.reset with
          mem := t.mem, moves := t.moves, hostRead := t.hostRead, tick := t.tick, lens := t.lens, clLens := t.clLens
          lit := { emptyTable Config.litCap with symbols := t.lit.symbols }
          dist := { emptyTable Config.distCap with symbols := t.dist.symbols }
          clen := { emptyTable Config.clenCap with symbols := t.clen.symbols } } ∧
      ∀ i : BitVec 6, t.regRead i = if i = 2 then 1 else 0

/-- The host does not access IN or OUT while BUSY (R75, R330): the model refuses such a move by name, so no statement covers it
(U7); every other byte of M the host reads and writes. -/
def Obligations.HostAccessToWindowsWhileBusy : Prop :=
  ∀ (s : State) (a : Addr) (v : Byte),
    let inside :=
      (s.inBase.toNat ≤ a.toNat ∧ a.toNat < s.inBase.toNat + s.inLen.toNat) ∨
        (s.outBase.toNat ≤ a.toNat ∧ a.toNat < s.outBase.toNat + s.outCap.toNat)
    (s.state = .busy → inside →
      moveStep (.writeMem a v) s = .refused .windowAccessWhileBusy ∧ moveStep (.readMem a) s = .refused .windowAccessWhileBusy) ∧
    (s.state ≠ .busy ∨ ¬inside →
      (∃ t, moveStep (.writeMem a v) s = .next t ∧ t.memRead a.toNat = v ∧
        (∀ b, b ≠ a.toNat → t.memRead b = s.memRead b) ∧ t = { s with mem := t.mem }) ∧
      moveStep (.readMem a) s = .next { s with hostRead := (s.memRead a.toNat).setWidth 32 })

/-- Waiting (R98, R270, R292): POLL reads STATUS, and while it is BUSY ENGINE steps and the host reads again. While STATE is not
BUSY the ENGINE has no step: its turn changes nothing but the model's count of steps (notes/assumptions/5.md). -/
def Obligations.PollAndIdleWait : Prop :=
  ∀ (s : State) (ms : List Move),
    (s.moves = .poll :: ms → s.state ≠ .busy →
      step s = .next { s with moves := ms, hostRead := s.statusWord, tick := s.tick + 1 }) ∧
    (s.moves = .poll :: ms → s.state = .busy →
      step s = andThen (engineStep { s with hostRead := s.statusWord }) fun t => .next { t with tick := t.tick + 1 }) ∧
    (s.moves = [] → s.state ≠ .busy → step s = .next { s with tick := s.tick + 1 })

/-! ## Whole-machine rules -/

/-- One byte of M (R66): a read after a write gives the value written and every other address reads as before; the canonical
form is kept, and two memories in that form that read alike at every address are the same memory. -/
def Obligations.MemoryReadsWhatWasWritten : Prop :=
  (∀ (m : List Host.Cell) (a b : Nat) (v : Byte),
    Memory.read (Memory.write m a v) a = v ∧ (b ≠ a → Memory.read (Memory.write m a v) b = Memory.read m b) ∧
      (Memory.wf m → a < 2 ^ 32 → Memory.wf (Memory.write m a v))) ∧
  ∀ m n : List Host.Cell, Memory.wf m → Memory.wf n → (∀ a, Memory.read m a = Memory.read n a) → m = n

/-- Who writes what (R30, R36, R38, R39, R291): CRC_STATE is written only by CRC_RESET and CRC_UPDATE, CRC_MATCH only by CRC_CHECK,
RESULT only by CRC_CHECK, HUFF_BUILD, HUFF_DECODE and BITS_READ, SFB.ROW and SFB.FT only by DEFILTER and FILTER, and no
instruction writes an operand register, CFG or HIF.CMDL. -/
def Obligations.RegistersHaveTheirWriters : Prop :=
  ∀ (i : Instr) (s t : State), exec i s = .next t →
    (i ≠ .crcReset → i ≠ .crcUpdate → t.crcState = s.crcState) ∧
      (i ≠ .crcCheck → t.crcMatch = s.crcMatch) ∧
      (i ≠ .crcCheck → (∀ b, i ≠ .huffBuild b) → (∀ b, i ≠ .huffDecode b) → (∀ n, i ≠ .bitsRead n) →
        t.result = s.result) ∧
      (formatOf i ≠ .defilterRow → formatOf i ≠ .filterRow → i ≠ .defilter → (∀ f, i ≠ .filter f) → i ≠ .filterFt5 →
        i ≠ .filterFt6 → i ≠ .filterFt7 → t.sfbRow = s.sfbRow ∧ t.sfbFt = s.sfbFt) ∧
      t.cfg = s.cfg ∧ t.inBase = s.inBase ∧ t.inLen = s.inLen ∧ t.outBase = s.outBase ∧ t.outCap = s.outCap ∧
      t.width = s.width ∧ t.height = s.height ∧ t.huffN = s.huffN ∧ t.cmdl = s.cmdl

/-- The engine writes M only inside OUT (R65). -/
def Obligations.EngineWritesOnlyOut : Prop :=
  ∀ s t : State, s.inv → s.state = .busy → engineStep s = .next t →
    ∀ a, a < s.outBase.toNat ∨ s.outBase.toNat + s.outCap.toNat ≤ a → t.memRead a = s.memRead a

/-- What the engine does depends on M only inside IN and OUT (R64, R66): two states that differ elsewhere in M make the same
step. -/
def Obligations.EngineReadsOnlyWindows : Prop :=
  ∀ s u t : State, s.inv → s.state = .busy → s.sameInWindows u → engineStep s = .next t →
    ∃ v, engineStep u = .next v ∧ t.sameInWindows v

/-- The canonical form of M is kept by every step, whatever the state. -/
def Obligations.StepKeepsMemoryCanonical : Prop :=
  ∀ s t : State, Memory.wf s.mem → step s = .next t → Memory.wf t.mem

/-- STATUS stays legal (R23, R45, R130, R270, R300 to R302) in every step: ERROR exactly with a detail from 1 to 17 and its
class, no error position without ERROR, DBD.ST is S_IDLE exactly outside a running INFLATE, LAST_OP is the running command's. -/
def Obligations.StepKeepsStatusLegal : Prop :=
  ∀ s t : State, s.statusOk → step s = .next t → t.statusOk

/-- The invariant of a run: from every state that meets it a step gives a next state that meets it, or refuses a host access to
a window of the running command; no fault is reachable (R14, R311). -/
def Obligations.RunsKeepInvariantAndNeverFault : Prop :=
  ∀ s : State, s.inv →
    (∃ t, step s = .next t ∧ t.inv) ∨
      (step s = .refused .windowAccessWhileBusy ∧ s.state = .busy ∧
        ∃ a m, s.moves.head? = some m ∧ (m = .readMem a ∨ ∃ v, m = .writeMem a v))

/-- The invariant holds after reset, and the values the spec gives for reset (R50). -/
def Obligations.ResetMeetsInvariant : Prop :=
  State.reset.inv ∧ State.reset.statusWord = 0 ∧ State.reset.crcState = 0xFFFFFFFF ∧ State.reset.storedEn = true ∧
    State.reset.strictCounts = false ∧ State.reset.st = .idle ∧ State.reset.phase = .start ∧
    tableCodes State.reset.lit = 0 ∧ tableCodes State.reset.dist = 0 ∧ tableCodes State.reset.clen = 0

/-- Termination (R290): every accepted command reaches DONE or ERROR, INFLATE within 8 * IN_LEN + 2 ENGINE steps, DEFILTER and
FILTER within HEIGHT + 1, every other command in one. -/
def Obligations.EveryCommandTerminates : Prop :=
  ∀ s : State, s.inv → s.state = .busy → s.phase = .start → s.moves = [] →
    ∃ n t,
      n ≤ (if cmdOp s.cmdl = 1 then 8 * s.inLen.toNat + 2
        else if cmdOp s.cmdl = 2 ∨ cmdOp s.cmdl = 3 then s.height.toNat + 1 else 1) ∧
      Host.Core.run core n s = .next t ∧ (t.state = .done ∨ t.state = .error)
end

