-- ==== Sys2Proof/Laws/State.lean ====
section
/-! SUPPORT. What each named update leaves in each field of State: one lemma a field an update. -/

namespace Sys2Proof.Machine

variable (s : State)

@[simp] theorem memWrite_state (a : Nat) (v : Byte) : (s.memWrite a v).state = s.state := rfl
@[simp] theorem memWrite_crcMatch (a : Nat) (v : Byte) : (s.memWrite a v).crcMatch = s.crcMatch := rfl
@[simp] theorem memWrite_errClass (a : Nat) (v : Byte) : (s.memWrite a v).errClass = s.errClass := rfl
@[simp] theorem memWrite_errDetail (a : Nat) (v : Byte) : (s.memWrite a v).errDetail = s.errDetail := rfl
@[simp] theorem memWrite_lastOp (a : Nat) (v : Byte) : (s.memWrite a v).lastOp = s.lastOp := rfl
@[simp] theorem memWrite_cfg (a : Nat) (v : Byte) : (s.memWrite a v).cfg = s.cfg := rfl
@[simp] theorem memWrite_inBase (a : Nat) (v : Byte) : (s.memWrite a v).inBase = s.inBase := rfl
@[simp] theorem memWrite_inLen (a : Nat) (v : Byte) : (s.memWrite a v).inLen = s.inLen := rfl
@[simp] theorem memWrite_outBase (a : Nat) (v : Byte) : (s.memWrite a v).outBase = s.outBase := rfl
@[simp] theorem memWrite_outCap (a : Nat) (v : Byte) : (s.memWrite a v).outCap = s.outCap := rfl
@[simp] theorem memWrite_width (a : Nat) (v : Byte) : (s.memWrite a v).width = s.width := rfl
@[simp] theorem memWrite_height (a : Nat) (v : Byte) : (s.memWrite a v).height = s.height := rfl
@[simp] theorem memWrite_huffN (a : Nat) (v : Byte) : (s.memWrite a v).huffN = s.huffN := rfl
@[simp] theorem memWrite_outLen (a : Nat) (v : Byte) : (s.memWrite a v).outLen = s.outLen := rfl
@[simp] theorem memWrite_inPos (a : Nat) (v : Byte) : (s.memWrite a v).inPos = s.inPos := rfl
@[simp] theorem memWrite_bitCnt (a : Nat) (v : Byte) : (s.memWrite a v).bitCnt = s.bitCnt := rfl
@[simp] theorem memWrite_bitBuf (a : Nat) (v : Byte) : (s.memWrite a v).bitBuf = s.bitBuf := rfl
@[simp] theorem memWrite_result (a : Nat) (v : Byte) : (s.memWrite a v).result = s.result := rfl
@[simp] theorem memWrite_errByte (a : Nat) (v : Byte) : (s.memWrite a v).errByte = s.errByte := rfl
@[simp] theorem memWrite_errBit (a : Nat) (v : Byte) : (s.memWrite a v).errBit = s.errBit := rfl
@[simp] theorem memWrite_crcState (a : Nat) (v : Byte) : (s.memWrite a v).crcState = s.crcState := rfl
@[simp] theorem memWrite_st (a : Nat) (v : Byte) : (s.memWrite a v).st = s.st := rfl
@[simp] theorem memWrite_bfinal (a : Nat) (v : Byte) : (s.memWrite a v).bfinal = s.bfinal := rfl
@[simp] theorem memWrite_btype (a : Nat) (v : Byte) : (s.memWrite a v).btype = s.btype := rfl
@[simp] theorem memWrite_storedRem (a : Nat) (v : Byte) : (s.memWrite a v).storedRem = s.storedRem := rfl
@[simp] theorem memWrite_hlit (a : Nat) (v : Byte) : (s.memWrite a v).hlit = s.hlit := rfl
@[simp] theorem memWrite_hdist (a : Nat) (v : Byte) : (s.memWrite a v).hdist = s.hdist := rfl
@[simp] theorem memWrite_hclen (a : Nat) (v : Byte) : (s.memWrite a v).hclen = s.hclen := rfl
@[simp] theorem memWrite_lensIdx (a : Nat) (v : Byte) : (s.memWrite a v).lensIdx = s.lensIdx := rfl
@[simp] theorem memWrite_lens (a : Nat) (v : Byte) : (s.memWrite a v).lens = s.lens := rfl
@[simp] theorem memWrite_clLens (a : Nat) (v : Byte) : (s.memWrite a v).clLens = s.clLens := rfl
@[simp] theorem memWrite_lit (a : Nat) (v : Byte) : (s.memWrite a v).lit = s.lit := rfl
@[simp] theorem memWrite_dist (a : Nat) (v : Byte) : (s.memWrite a v).dist = s.dist := rfl
@[simp] theorem memWrite_clen (a : Nat) (v : Byte) : (s.memWrite a v).clen = s.clen := rfl
@[simp] theorem memWrite_sfbRow (a : Nat) (v : Byte) : (s.memWrite a v).sfbRow = s.sfbRow := rfl
@[simp] theorem memWrite_sfbFt (a : Nat) (v : Byte) : (s.memWrite a v).sfbFt = s.sfbFt := rfl
@[simp] theorem memWrite_cmdl (a : Nat) (v : Byte) : (s.memWrite a v).cmdl = s.cmdl := rfl
@[simp] theorem memWrite_phase (a : Nat) (v : Byte) : (s.memWrite a v).phase = s.phase := rfl
@[simp] theorem memWrite_mem (a : Nat) (v : Byte) : (s.memWrite a v).mem = Memory.write s.mem a v := rfl
@[simp] theorem memWrite_moves (a : Nat) (v : Byte) : (s.memWrite a v).moves = s.moves := rfl
@[simp] theorem memWrite_hostRead (a : Nat) (v : Byte) : (s.memWrite a v).hostRead = s.hostRead := rfl
@[simp] theorem memWrite_tick (a : Nat) (v : Byte) : (s.memWrite a v).tick = s.tick := rfl
@[simp] theorem memWrite_eltStart (a : Nat) (v : Byte) : (s.memWrite a v).eltStart = s.eltStart := rfl
@[simp] theorem memWrite_pending (a : Nat) (v : Byte) : (s.memWrite a v).pending = s.pending := rfl

@[simp] theorem alignToByte_state : (alignToByte s).state = s.state := rfl
@[simp] theorem alignToByte_crcMatch : (alignToByte s).crcMatch = s.crcMatch := rfl
@[simp] theorem alignToByte_errClass : (alignToByte s).errClass = s.errClass := rfl
@[simp] theorem alignToByte_errDetail : (alignToByte s).errDetail = s.errDetail := rfl
@[simp] theorem alignToByte_lastOp : (alignToByte s).lastOp = s.lastOp := rfl
@[simp] theorem alignToByte_cfg : (alignToByte s).cfg = s.cfg := rfl
@[simp] theorem alignToByte_inBase : (alignToByte s).inBase = s.inBase := rfl
@[simp] theorem alignToByte_inLen : (alignToByte s).inLen = s.inLen := rfl
@[simp] theorem alignToByte_outBase : (alignToByte s).outBase = s.outBase := rfl
@[simp] theorem alignToByte_outCap : (alignToByte s).outCap = s.outCap := rfl
@[simp] theorem alignToByte_width : (alignToByte s).width = s.width := rfl
@[simp] theorem alignToByte_height : (alignToByte s).height = s.height := rfl
@[simp] theorem alignToByte_huffN : (alignToByte s).huffN = s.huffN := rfl
@[simp] theorem alignToByte_outLen : (alignToByte s).outLen = s.outLen := rfl
@[simp] theorem alignToByte_inPos : (alignToByte s).inPos = s.inPos := rfl
@[simp] theorem alignToByte_bitCnt : (alignToByte s).bitCnt = 0 := rfl
@[simp] theorem alignToByte_bitBuf : (alignToByte s).bitBuf = 0 := rfl
@[simp] theorem alignToByte_result : (alignToByte s).result = s.result := rfl
@[simp] theorem alignToByte_errByte : (alignToByte s).errByte = s.errByte := rfl
@[simp] theorem alignToByte_errBit : (alignToByte s).errBit = s.errBit := rfl
@[simp] theorem alignToByte_crcState : (alignToByte s).crcState = s.crcState := rfl
@[simp] theorem alignToByte_st : (alignToByte s).st = s.st := rfl
@[simp] theorem alignToByte_bfinal : (alignToByte s).bfinal = s.bfinal := rfl
@[simp] theorem alignToByte_btype : (alignToByte s).btype = s.btype := rfl
@[simp] theorem alignToByte_storedRem : (alignToByte s).storedRem = s.storedRem := rfl
@[simp] theorem alignToByte_hlit : (alignToByte s).hlit = s.hlit := rfl
@[simp] theorem alignToByte_hdist : (alignToByte s).hdist = s.hdist := rfl
@[simp] theorem alignToByte_hclen : (alignToByte s).hclen = s.hclen := rfl
@[simp] theorem alignToByte_lensIdx : (alignToByte s).lensIdx = s.lensIdx := rfl
@[simp] theorem alignToByte_lens : (alignToByte s).lens = s.lens := rfl
@[simp] theorem alignToByte_clLens : (alignToByte s).clLens = s.clLens := rfl
@[simp] theorem alignToByte_lit : (alignToByte s).lit = s.lit := rfl
@[simp] theorem alignToByte_dist : (alignToByte s).dist = s.dist := rfl
@[simp] theorem alignToByte_clen : (alignToByte s).clen = s.clen := rfl
@[simp] theorem alignToByte_sfbRow : (alignToByte s).sfbRow = s.sfbRow := rfl
@[simp] theorem alignToByte_sfbFt : (alignToByte s).sfbFt = s.sfbFt := rfl
@[simp] theorem alignToByte_cmdl : (alignToByte s).cmdl = s.cmdl := rfl
@[simp] theorem alignToByte_phase : (alignToByte s).phase = s.phase := rfl
@[simp] theorem alignToByte_mem : (alignToByte s).mem = s.mem := rfl
@[simp] theorem alignToByte_moves : (alignToByte s).moves = s.moves := rfl
@[simp] theorem alignToByte_hostRead : (alignToByte s).hostRead = s.hostRead := rfl
@[simp] theorem alignToByte_tick : (alignToByte s).tick = s.tick := rfl
@[simp] theorem alignToByte_eltStart : (alignToByte s).eltStart = s.eltStart := rfl
@[simp] theorem alignToByte_pending : (alignToByte s).pending = s.pending := rfl

@[simp] theorem resetCursor_state : (resetCursor s).state = s.state := rfl
@[simp] theorem resetCursor_crcMatch : (resetCursor s).crcMatch = s.crcMatch := rfl
@[simp] theorem resetCursor_errClass : (resetCursor s).errClass = s.errClass := rfl
@[simp] theorem resetCursor_errDetail : (resetCursor s).errDetail = s.errDetail := rfl
@[simp] theorem resetCursor_lastOp : (resetCursor s).lastOp = s.lastOp := rfl
@[simp] theorem resetCursor_cfg : (resetCursor s).cfg = s.cfg := rfl
@[simp] theorem resetCursor_inBase : (resetCursor s).inBase = s.inBase := rfl
@[simp] theorem resetCursor_inLen : (resetCursor s).inLen = s.inLen := rfl
@[simp] theorem resetCursor_outBase : (resetCursor s).outBase = s.outBase := rfl
@[simp] theorem resetCursor_outCap : (resetCursor s).outCap = s.outCap := rfl
@[simp] theorem resetCursor_width : (resetCursor s).width = s.width := rfl
@[simp] theorem resetCursor_height : (resetCursor s).height = s.height := rfl
@[simp] theorem resetCursor_huffN : (resetCursor s).huffN = s.huffN := rfl
@[simp] theorem resetCursor_outLen : (resetCursor s).outLen = s.outLen := rfl
@[simp] theorem resetCursor_inPos : (resetCursor s).inPos = 0 := rfl
@[simp] theorem resetCursor_bitCnt : (resetCursor s).bitCnt = 0 := rfl
@[simp] theorem resetCursor_bitBuf : (resetCursor s).bitBuf = 0 := rfl
@[simp] theorem resetCursor_result : (resetCursor s).result = s.result := rfl
@[simp] theorem resetCursor_errByte : (resetCursor s).errByte = s.errByte := rfl
@[simp] theorem resetCursor_errBit : (resetCursor s).errBit = s.errBit := rfl
@[simp] theorem resetCursor_crcState : (resetCursor s).crcState = s.crcState := rfl
@[simp] theorem resetCursor_st : (resetCursor s).st = s.st := rfl
@[simp] theorem resetCursor_bfinal : (resetCursor s).bfinal = s.bfinal := rfl
@[simp] theorem resetCursor_btype : (resetCursor s).btype = s.btype := rfl
@[simp] theorem resetCursor_storedRem : (resetCursor s).storedRem = s.storedRem := rfl
@[simp] theorem resetCursor_hlit : (resetCursor s).hlit = s.hlit := rfl
@[simp] theorem resetCursor_hdist : (resetCursor s).hdist = s.hdist := rfl
@[simp] theorem resetCursor_hclen : (resetCursor s).hclen = s.hclen := rfl
@[simp] theorem resetCursor_lensIdx : (resetCursor s).lensIdx = s.lensIdx := rfl
@[simp] theorem resetCursor_lens : (resetCursor s).lens = s.lens := rfl
@[simp] theorem resetCursor_clLens : (resetCursor s).clLens = s.clLens := rfl
@[simp] theorem resetCursor_lit : (resetCursor s).lit = s.lit := rfl
@[simp] theorem resetCursor_dist : (resetCursor s).dist = s.dist := rfl
@[simp] theorem resetCursor_clen : (resetCursor s).clen = s.clen := rfl
@[simp] theorem resetCursor_sfbRow : (resetCursor s).sfbRow = s.sfbRow := rfl
@[simp] theorem resetCursor_sfbFt : (resetCursor s).sfbFt = s.sfbFt := rfl
@[simp] theorem resetCursor_cmdl : (resetCursor s).cmdl = s.cmdl := rfl
@[simp] theorem resetCursor_phase : (resetCursor s).phase = s.phase := rfl
@[simp] theorem resetCursor_mem : (resetCursor s).mem = s.mem := rfl
@[simp] theorem resetCursor_moves : (resetCursor s).moves = s.moves := rfl
@[simp] theorem resetCursor_hostRead : (resetCursor s).hostRead = s.hostRead := rfl
@[simp] theorem resetCursor_tick : (resetCursor s).tick = s.tick := rfl
@[simp] theorem resetCursor_eltStart : (resetCursor s).eltStart = s.eltStart := rfl
@[simp] theorem resetCursor_pending : (resetCursor s).pending = s.pending := rfl

@[simp] theorem complete_state : (complete s).state = .done := rfl
@[simp] theorem complete_crcMatch : (complete s).crcMatch = s.crcMatch := rfl
@[simp] theorem complete_errClass : (complete s).errClass = s.errClass := rfl
@[simp] theorem complete_errDetail : (complete s).errDetail = s.errDetail := rfl
@[simp] theorem complete_lastOp : (complete s).lastOp = s.lastOp := rfl
@[simp] theorem complete_cfg : (complete s).cfg = s.cfg := rfl
@[simp] theorem complete_inBase : (complete s).inBase = s.inBase := rfl
@[simp] theorem complete_inLen : (complete s).inLen = s.inLen := rfl
@[simp] theorem complete_outBase : (complete s).outBase = s.outBase := rfl
@[simp] theorem complete_outCap : (complete s).outCap = s.outCap := rfl
@[simp] theorem complete_width : (complete s).width = s.width := rfl
@[simp] theorem complete_height : (complete s).height = s.height := rfl
@[simp] theorem complete_huffN : (complete s).huffN = s.huffN := rfl
@[simp] theorem complete_outLen : (complete s).outLen = s.outLen := rfl
@[simp] theorem complete_inPos : (complete s).inPos = s.inPos := rfl
@[simp] theorem complete_bitCnt : (complete s).bitCnt = s.bitCnt := rfl
@[simp] theorem complete_bitBuf : (complete s).bitBuf = s.bitBuf := rfl
@[simp] theorem complete_result : (complete s).result = s.result := rfl
@[simp] theorem complete_errByte : (complete s).errByte = s.errByte := rfl
@[simp] theorem complete_errBit : (complete s).errBit = s.errBit := rfl
@[simp] theorem complete_crcState : (complete s).crcState = s.crcState := rfl
@[simp] theorem complete_st : (complete s).st = s.st := rfl
@[simp] theorem complete_bfinal : (complete s).bfinal = s.bfinal := rfl
@[simp] theorem complete_btype : (complete s).btype = s.btype := rfl
@[simp] theorem complete_storedRem : (complete s).storedRem = s.storedRem := rfl
@[simp] theorem complete_hlit : (complete s).hlit = s.hlit := rfl
@[simp] theorem complete_hdist : (complete s).hdist = s.hdist := rfl
@[simp] theorem complete_hclen : (complete s).hclen = s.hclen := rfl
@[simp] theorem complete_lensIdx : (complete s).lensIdx = s.lensIdx := rfl
@[simp] theorem complete_lens : (complete s).lens = s.lens := rfl
@[simp] theorem complete_clLens : (complete s).clLens = s.clLens := rfl
@[simp] theorem complete_lit : (complete s).lit = s.lit := rfl
@[simp] theorem complete_dist : (complete s).dist = s.dist := rfl
@[simp] theorem complete_clen : (complete s).clen = s.clen := rfl
@[simp] theorem complete_sfbRow : (complete s).sfbRow = s.sfbRow := rfl
@[simp] theorem complete_sfbFt : (complete s).sfbFt = s.sfbFt := rfl
@[simp] theorem complete_cmdl : (complete s).cmdl = s.cmdl := rfl
@[simp] theorem complete_phase : (complete s).phase = s.phase := rfl
@[simp] theorem complete_mem : (complete s).mem = s.mem := rfl
@[simp] theorem complete_moves : (complete s).moves = s.moves := rfl
@[simp] theorem complete_hostRead : (complete s).hostRead = s.hostRead := rfl
@[simp] theorem complete_tick : (complete s).tick = s.tick := rfl
@[simp] theorem complete_eltStart : (complete s).eltStart = s.eltStart := rfl
@[simp] theorem complete_pending : (complete s).pending = s.pending := rfl

@[simp] theorem acceptCommand_state (w : Word) : (acceptCommand w s).state = .busy := rfl
@[simp] theorem acceptCommand_crcMatch (w : Word) : (acceptCommand w s).crcMatch = s.crcMatch := rfl
@[simp] theorem acceptCommand_errClass (w : Word) : (acceptCommand w s).errClass = 0 := rfl
@[simp] theorem acceptCommand_errDetail (w : Word) : (acceptCommand w s).errDetail = 0 := rfl
@[simp] theorem acceptCommand_lastOp (w : Word) : (acceptCommand w s).lastOp = cmdOp w := rfl
@[simp] theorem acceptCommand_cfg (w : Word) : (acceptCommand w s).cfg = s.cfg := rfl
@[simp] theorem acceptCommand_inBase (w : Word) : (acceptCommand w s).inBase = s.inBase := rfl
@[simp] theorem acceptCommand_inLen (w : Word) : (acceptCommand w s).inLen = s.inLen := rfl
@[simp] theorem acceptCommand_outBase (w : Word) : (acceptCommand w s).outBase = s.outBase := rfl
@[simp] theorem acceptCommand_outCap (w : Word) : (acceptCommand w s).outCap = s.outCap := rfl
@[simp] theorem acceptCommand_width (w : Word) : (acceptCommand w s).width = s.width := rfl
@[simp] theorem acceptCommand_height (w : Word) : (acceptCommand w s).height = s.height := rfl
@[simp] theorem acceptCommand_huffN (w : Word) : (acceptCommand w s).huffN = s.huffN := rfl
@[simp] theorem acceptCommand_outLen (w : Word) : (acceptCommand w s).outLen = s.outLen := rfl
@[simp] theorem acceptCommand_inPos (w : Word) : (acceptCommand w s).inPos = s.inPos := rfl
@[simp] theorem acceptCommand_bitCnt (w : Word) : (acceptCommand w s).bitCnt = s.bitCnt := rfl
@[simp] theorem acceptCommand_bitBuf (w : Word) : (acceptCommand w s).bitBuf = s.bitBuf := rfl
@[simp] theorem acceptCommand_result (w : Word) : (acceptCommand w s).result = s.result := rfl
@[simp] theorem acceptCommand_errByte (w : Word) : (acceptCommand w s).errByte = 0 := rfl
@[simp] theorem acceptCommand_errBit (w : Word) : (acceptCommand w s).errBit = 0 := rfl
@[simp] theorem acceptCommand_crcState (w : Word) : (acceptCommand w s).crcState = s.crcState := rfl
@[simp] theorem acceptCommand_st (w : Word) : (acceptCommand w s).st = s.st := rfl
@[simp] theorem acceptCommand_bfinal (w : Word) : (acceptCommand w s).bfinal = s.bfinal := rfl
@[simp] theorem acceptCommand_btype (w : Word) : (acceptCommand w s).btype = s.btype := rfl
@[simp] theorem acceptCommand_storedRem (w : Word) : (acceptCommand w s).storedRem = s.storedRem := rfl
@[simp] theorem acceptCommand_hlit (w : Word) : (acceptCommand w s).hlit = s.hlit := rfl
@[simp] theorem acceptCommand_hdist (w : Word) : (acceptCommand w s).hdist = s.hdist := rfl
@[simp] theorem acceptCommand_hclen (w : Word) : (acceptCommand w s).hclen = s.hclen := rfl
@[simp] theorem acceptCommand_lensIdx (w : Word) : (acceptCommand w s).lensIdx = s.lensIdx := rfl
@[simp] theorem acceptCommand_lens (w : Word) : (acceptCommand w s).lens = s.lens := rfl
@[simp] theorem acceptCommand_clLens (w : Word) : (acceptCommand w s).clLens = s.clLens := rfl
@[simp] theorem acceptCommand_lit (w : Word) : (acceptCommand w s).lit = s.lit := rfl
@[simp] theorem acceptCommand_dist (w : Word) : (acceptCommand w s).dist = s.dist := rfl
@[simp] theorem acceptCommand_clen (w : Word) : (acceptCommand w s).clen = s.clen := rfl
@[simp] theorem acceptCommand_sfbRow (w : Word) : (acceptCommand w s).sfbRow = s.sfbRow := rfl
@[simp] theorem acceptCommand_sfbFt (w : Word) : (acceptCommand w s).sfbFt = s.sfbFt := rfl
@[simp] theorem acceptCommand_cmdl (w : Word) : (acceptCommand w s).cmdl = w := rfl
@[simp] theorem acceptCommand_phase (w : Word) : (acceptCommand w s).phase = .start := rfl
@[simp] theorem acceptCommand_mem (w : Word) : (acceptCommand w s).mem = s.mem := rfl
@[simp] theorem acceptCommand_moves (w : Word) : (acceptCommand w s).moves = s.moves := rfl
@[simp] theorem acceptCommand_hostRead (w : Word) : (acceptCommand w s).hostRead = s.hostRead := rfl
@[simp] theorem acceptCommand_tick (w : Word) : (acceptCommand w s).tick = s.tick := rfl
@[simp] theorem acceptCommand_eltStart (w : Word) : (acceptCommand w s).eltStart = s.eltStart := rfl
@[simp] theorem acceptCommand_pending (w : Word) : (acceptCommand w s).pending = s.pending := rfl

@[simp] theorem clearError_state : (clearError s).state = .idle := rfl
@[simp] theorem clearError_crcMatch : (clearError s).crcMatch = s.crcMatch := rfl
@[simp] theorem clearError_errClass : (clearError s).errClass = 0 := rfl
@[simp] theorem clearError_errDetail : (clearError s).errDetail = 0 := rfl
@[simp] theorem clearError_lastOp : (clearError s).lastOp = 0xF := rfl
@[simp] theorem clearError_cfg : (clearError s).cfg = s.cfg := rfl
@[simp] theorem clearError_inBase : (clearError s).inBase = s.inBase := rfl
@[simp] theorem clearError_inLen : (clearError s).inLen = s.inLen := rfl
@[simp] theorem clearError_outBase : (clearError s).outBase = s.outBase := rfl
@[simp] theorem clearError_outCap : (clearError s).outCap = s.outCap := rfl
@[simp] theorem clearError_width : (clearError s).width = s.width := rfl
@[simp] theorem clearError_height : (clearError s).height = s.height := rfl
@[simp] theorem clearError_huffN : (clearError s).huffN = s.huffN := rfl
@[simp] theorem clearError_outLen : (clearError s).outLen = s.outLen := rfl
@[simp] theorem clearError_inPos : (clearError s).inPos = s.inPos := rfl
@[simp] theorem clearError_bitCnt : (clearError s).bitCnt = s.bitCnt := rfl
@[simp] theorem clearError_bitBuf : (clearError s).bitBuf = s.bitBuf := rfl
@[simp] theorem clearError_result : (clearError s).result = s.result := rfl
@[simp] theorem clearError_errByte : (clearError s).errByte = 0 := rfl
@[simp] theorem clearError_errBit : (clearError s).errBit = 0 := rfl
@[simp] theorem clearError_crcState : (clearError s).crcState = s.crcState := rfl
@[simp] theorem clearError_st : (clearError s).st = s.st := rfl
@[simp] theorem clearError_bfinal : (clearError s).bfinal = s.bfinal := rfl
@[simp] theorem clearError_btype : (clearError s).btype = s.btype := rfl
@[simp] theorem clearError_storedRem : (clearError s).storedRem = s.storedRem := rfl
@[simp] theorem clearError_hlit : (clearError s).hlit = s.hlit := rfl
@[simp] theorem clearError_hdist : (clearError s).hdist = s.hdist := rfl
@[simp] theorem clearError_hclen : (clearError s).hclen = s.hclen := rfl
@[simp] theorem clearError_lensIdx : (clearError s).lensIdx = s.lensIdx := rfl
@[simp] theorem clearError_lens : (clearError s).lens = s.lens := rfl
@[simp] theorem clearError_clLens : (clearError s).clLens = s.clLens := rfl
@[simp] theorem clearError_lit : (clearError s).lit = s.lit := rfl
@[simp] theorem clearError_dist : (clearError s).dist = s.dist := rfl
@[simp] theorem clearError_clen : (clearError s).clen = s.clen := rfl
@[simp] theorem clearError_sfbRow : (clearError s).sfbRow = s.sfbRow := rfl
@[simp] theorem clearError_sfbFt : (clearError s).sfbFt = s.sfbFt := rfl
@[simp] theorem clearError_cmdl : (clearError s).cmdl = s.cmdl := rfl
@[simp] theorem clearError_phase : (clearError s).phase = s.phase := rfl
@[simp] theorem clearError_mem : (clearError s).mem = s.mem := rfl
@[simp] theorem clearError_moves : (clearError s).moves = s.moves := rfl
@[simp] theorem clearError_hostRead : (clearError s).hostRead = s.hostRead := rfl
@[simp] theorem clearError_tick : (clearError s).tick = s.tick := rfl
@[simp] theorem clearError_eltStart : (clearError s).eltStart = s.eltStart := rfl
@[simp] theorem clearError_pending : (clearError s).pending = s.pending := rfl

@[simp] theorem headerDone_state (f : BitVec 1) (t : BitVec 2) : (headerDone f t s).state = s.state := rfl
@[simp] theorem headerDone_crcMatch (f : BitVec 1) (t : BitVec 2) : (headerDone f t s).crcMatch = s.crcMatch := rfl
@[simp] theorem headerDone_errClass (f : BitVec 1) (t : BitVec 2) : (headerDone f t s).errClass = s.errClass := rfl
@[simp] theorem headerDone_errDetail (f : BitVec 1) (t : BitVec 2) : (headerDone f t s).errDetail = s.errDetail := rfl
@[simp] theorem headerDone_lastOp (f : BitVec 1) (t : BitVec 2) : (headerDone f t s).lastOp = s.lastOp := rfl
@[simp] theorem headerDone_cfg (f : BitVec 1) (t : BitVec 2) : (headerDone f t s).cfg = s.cfg := rfl
@[simp] theorem headerDone_inBase (f : BitVec 1) (t : BitVec 2) : (headerDone f t s).inBase = s.inBase := rfl
@[simp] theorem headerDone_inLen (f : BitVec 1) (t : BitVec 2) : (headerDone f t s).inLen = s.inLen := rfl
@[simp] theorem headerDone_outBase (f : BitVec 1) (t : BitVec 2) : (headerDone f t s).outBase = s.outBase := rfl
@[simp] theorem headerDone_outCap (f : BitVec 1) (t : BitVec 2) : (headerDone f t s).outCap = s.outCap := rfl
@[simp] theorem headerDone_width (f : BitVec 1) (t : BitVec 2) : (headerDone f t s).width = s.width := rfl
@[simp] theorem headerDone_height (f : BitVec 1) (t : BitVec 2) : (headerDone f t s).height = s.height := rfl
@[simp] theorem headerDone_huffN (f : BitVec 1) (t : BitVec 2) : (headerDone f t s).huffN = s.huffN := rfl
@[simp] theorem headerDone_outLen (f : BitVec 1) (t : BitVec 2) : (headerDone f t s).outLen = s.outLen := rfl
@[simp] theorem headerDone_inPos (f : BitVec 1) (t : BitVec 2) : (headerDone f t s).inPos = s.inPos := rfl
@[simp] theorem headerDone_bitCnt (f : BitVec 1) (t : BitVec 2) : (headerDone f t s).bitCnt = s.bitCnt := rfl
@[simp] theorem headerDone_bitBuf (f : BitVec 1) (t : BitVec 2) : (headerDone f t s).bitBuf = s.bitBuf := rfl
@[simp] theorem headerDone_result (f : BitVec 1) (t : BitVec 2) : (headerDone f t s).result = s.result := rfl
@[simp] theorem headerDone_errByte (f : BitVec 1) (t : BitVec 2) : (headerDone f t s).errByte = s.errByte := rfl
@[simp] theorem headerDone_errBit (f : BitVec 1) (t : BitVec 2) : (headerDone f t s).errBit = s.errBit := rfl
@[simp] theorem headerDone_crcState (f : BitVec 1) (t : BitVec 2) : (headerDone f t s).crcState = s.crcState := rfl
@[simp] theorem headerDone_st (f : BitVec 1) (t : BitVec 2) : (headerDone f t s).st = s.st := rfl
@[simp] theorem headerDone_bfinal (f : BitVec 1) (t : BitVec 2) : (headerDone f t s).bfinal = f := rfl
@[simp] theorem headerDone_btype (f : BitVec 1) (t : BitVec 2) : (headerDone f t s).btype = t := rfl
@[simp] theorem headerDone_storedRem (f : BitVec 1) (t : BitVec 2) : (headerDone f t s).storedRem = s.storedRem := rfl
@[simp] theorem headerDone_hlit (f : BitVec 1) (t : BitVec 2) : (headerDone f t s).hlit = s.hlit := rfl
@[simp] theorem headerDone_hdist (f : BitVec 1) (t : BitVec 2) : (headerDone f t s).hdist = s.hdist := rfl
@[simp] theorem headerDone_hclen (f : BitVec 1) (t : BitVec 2) : (headerDone f t s).hclen = s.hclen := rfl
@[simp] theorem headerDone_lensIdx (f : BitVec 1) (t : BitVec 2) : (headerDone f t s).lensIdx = s.lensIdx := rfl
@[simp] theorem headerDone_lens (f : BitVec 1) (t : BitVec 2) : (headerDone f t s).lens = s.lens := rfl
@[simp] theorem headerDone_clLens (f : BitVec 1) (t : BitVec 2) : (headerDone f t s).clLens = s.clLens := rfl
@[simp] theorem headerDone_lit (f : BitVec 1) (t : BitVec 2) : (headerDone f t s).lit = s.lit := rfl
@[simp] theorem headerDone_dist (f : BitVec 1) (t : BitVec 2) : (headerDone f t s).dist = s.dist := rfl
@[simp] theorem headerDone_clen (f : BitVec 1) (t : BitVec 2) : (headerDone f t s).clen = s.clen := rfl
@[simp] theorem headerDone_sfbRow (f : BitVec 1) (t : BitVec 2) : (headerDone f t s).sfbRow = s.sfbRow := rfl
@[simp] theorem headerDone_sfbFt (f : BitVec 1) (t : BitVec 2) : (headerDone f t s).sfbFt = s.sfbFt := rfl
@[simp] theorem headerDone_cmdl (f : BitVec 1) (t : BitVec 2) : (headerDone f t s).cmdl = s.cmdl := rfl
@[simp] theorem headerDone_phase (f : BitVec 1) (t : BitVec 2) : (headerDone f t s).phase = s.phase := rfl
@[simp] theorem headerDone_mem (f : BitVec 1) (t : BitVec 2) : (headerDone f t s).mem = s.mem := rfl
@[simp] theorem headerDone_moves (f : BitVec 1) (t : BitVec 2) : (headerDone f t s).moves = s.moves := rfl
@[simp] theorem headerDone_hostRead (f : BitVec 1) (t : BitVec 2) : (headerDone f t s).hostRead = s.hostRead := rfl
@[simp] theorem headerDone_tick (f : BitVec 1) (t : BitVec 2) : (headerDone f t s).tick = s.tick := rfl
@[simp] theorem headerDone_eltStart (f : BitVec 1) (t : BitVec 2) : (headerDone f t s).eltStart = s.eltStart := rfl
@[simp] theorem headerDone_pending (f : BitVec 1) (t : BitVec 2) : (headerDone f t s).pending = .none := rfl

@[simp] theorem matchDone_state : (matchDone s).state = s.state := rfl
@[simp] theorem matchDone_crcMatch : (matchDone s).crcMatch = s.crcMatch := rfl
@[simp] theorem matchDone_errClass : (matchDone s).errClass = s.errClass := rfl
@[simp] theorem matchDone_errDetail : (matchDone s).errDetail = s.errDetail := rfl
@[simp] theorem matchDone_lastOp : (matchDone s).lastOp = s.lastOp := rfl
@[simp] theorem matchDone_cfg : (matchDone s).cfg = s.cfg := rfl
@[simp] theorem matchDone_inBase : (matchDone s).inBase = s.inBase := rfl
@[simp] theorem matchDone_inLen : (matchDone s).inLen = s.inLen := rfl
@[simp] theorem matchDone_outBase : (matchDone s).outBase = s.outBase := rfl
@[simp] theorem matchDone_outCap : (matchDone s).outCap = s.outCap := rfl
@[simp] theorem matchDone_width : (matchDone s).width = s.width := rfl
@[simp] theorem matchDone_height : (matchDone s).height = s.height := rfl
@[simp] theorem matchDone_huffN : (matchDone s).huffN = s.huffN := rfl
@[simp] theorem matchDone_outLen : (matchDone s).outLen = s.outLen := rfl
@[simp] theorem matchDone_inPos : (matchDone s).inPos = s.inPos := rfl
@[simp] theorem matchDone_bitCnt : (matchDone s).bitCnt = s.bitCnt := rfl
@[simp] theorem matchDone_bitBuf : (matchDone s).bitBuf = s.bitBuf := rfl
@[simp] theorem matchDone_result : (matchDone s).result = s.result := rfl
@[simp] theorem matchDone_errByte : (matchDone s).errByte = s.errByte := rfl
@[simp] theorem matchDone_errBit : (matchDone s).errBit = s.errBit := rfl
@[simp] theorem matchDone_crcState : (matchDone s).crcState = s.crcState := rfl
@[simp] theorem matchDone_st : (matchDone s).st = .sym := rfl
@[simp] theorem matchDone_bfinal : (matchDone s).bfinal = s.bfinal := rfl
@[simp] theorem matchDone_btype : (matchDone s).btype = s.btype := rfl
@[simp] theorem matchDone_storedRem : (matchDone s).storedRem = s.storedRem := rfl
@[simp] theorem matchDone_hlit : (matchDone s).hlit = s.hlit := rfl
@[simp] theorem matchDone_hdist : (matchDone s).hdist = s.hdist := rfl
@[simp] theorem matchDone_hclen : (matchDone s).hclen = s.hclen := rfl
@[simp] theorem matchDone_lensIdx : (matchDone s).lensIdx = s.lensIdx := rfl
@[simp] theorem matchDone_lens : (matchDone s).lens = s.lens := rfl
@[simp] theorem matchDone_clLens : (matchDone s).clLens = s.clLens := rfl
@[simp] theorem matchDone_lit : (matchDone s).lit = s.lit := rfl
@[simp] theorem matchDone_dist : (matchDone s).dist = s.dist := rfl
@[simp] theorem matchDone_clen : (matchDone s).clen = s.clen := rfl
@[simp] theorem matchDone_sfbRow : (matchDone s).sfbRow = s.sfbRow := rfl
@[simp] theorem matchDone_sfbFt : (matchDone s).sfbFt = s.sfbFt := rfl
@[simp] theorem matchDone_cmdl : (matchDone s).cmdl = s.cmdl := rfl
@[simp] theorem matchDone_phase : (matchDone s).phase = s.phase := rfl
@[simp] theorem matchDone_mem : (matchDone s).mem = s.mem := rfl
@[simp] theorem matchDone_moves : (matchDone s).moves = s.moves := rfl
@[simp] theorem matchDone_hostRead : (matchDone s).hostRead = s.hostRead := rfl
@[simp] theorem matchDone_tick : (matchDone s).tick = s.tick := rfl
@[simp] theorem matchDone_eltStart : (matchDone s).eltStart = s.eltStart := rfl
@[simp] theorem matchDone_pending : (matchDone s).pending = .none := rfl

@[simp] theorem tickOn_state : (tickOn s).state = s.state := rfl
@[simp] theorem tickOn_crcMatch : (tickOn s).crcMatch = s.crcMatch := rfl
@[simp] theorem tickOn_errClass : (tickOn s).errClass = s.errClass := rfl
@[simp] theorem tickOn_errDetail : (tickOn s).errDetail = s.errDetail := rfl
@[simp] theorem tickOn_lastOp : (tickOn s).lastOp = s.lastOp := rfl
@[simp] theorem tickOn_cfg : (tickOn s).cfg = s.cfg := rfl
@[simp] theorem tickOn_inBase : (tickOn s).inBase = s.inBase := rfl
@[simp] theorem tickOn_inLen : (tickOn s).inLen = s.inLen := rfl
@[simp] theorem tickOn_outBase : (tickOn s).outBase = s.outBase := rfl
@[simp] theorem tickOn_outCap : (tickOn s).outCap = s.outCap := rfl
@[simp] theorem tickOn_width : (tickOn s).width = s.width := rfl
@[simp] theorem tickOn_height : (tickOn s).height = s.height := rfl
@[simp] theorem tickOn_huffN : (tickOn s).huffN = s.huffN := rfl
@[simp] theorem tickOn_outLen : (tickOn s).outLen = s.outLen := rfl
@[simp] theorem tickOn_inPos : (tickOn s).inPos = s.inPos := rfl
@[simp] theorem tickOn_bitCnt : (tickOn s).bitCnt = s.bitCnt := rfl
@[simp] theorem tickOn_bitBuf : (tickOn s).bitBuf = s.bitBuf := rfl
@[simp] theorem tickOn_result : (tickOn s).result = s.result := rfl
@[simp] theorem tickOn_errByte : (tickOn s).errByte = s.errByte := rfl
@[simp] theorem tickOn_errBit : (tickOn s).errBit = s.errBit := rfl
@[simp] theorem tickOn_crcState : (tickOn s).crcState = s.crcState := rfl
@[simp] theorem tickOn_st : (tickOn s).st = s.st := rfl
@[simp] theorem tickOn_bfinal : (tickOn s).bfinal = s.bfinal := rfl
@[simp] theorem tickOn_btype : (tickOn s).btype = s.btype := rfl
@[simp] theorem tickOn_storedRem : (tickOn s).storedRem = s.storedRem := rfl
@[simp] theorem tickOn_hlit : (tickOn s).hlit = s.hlit := rfl
@[simp] theorem tickOn_hdist : (tickOn s).hdist = s.hdist := rfl
@[simp] theorem tickOn_hclen : (tickOn s).hclen = s.hclen := rfl
@[simp] theorem tickOn_lensIdx : (tickOn s).lensIdx = s.lensIdx := rfl
@[simp] theorem tickOn_lens : (tickOn s).lens = s.lens := rfl
@[simp] theorem tickOn_clLens : (tickOn s).clLens = s.clLens := rfl
@[simp] theorem tickOn_lit : (tickOn s).lit = s.lit := rfl
@[simp] theorem tickOn_dist : (tickOn s).dist = s.dist := rfl
@[simp] theorem tickOn_clen : (tickOn s).clen = s.clen := rfl
@[simp] theorem tickOn_sfbRow : (tickOn s).sfbRow = s.sfbRow := rfl
@[simp] theorem tickOn_sfbFt : (tickOn s).sfbFt = s.sfbFt := rfl
@[simp] theorem tickOn_cmdl : (tickOn s).cmdl = s.cmdl := rfl
@[simp] theorem tickOn_phase : (tickOn s).phase = s.phase := rfl
@[simp] theorem tickOn_mem : (tickOn s).mem = s.mem := rfl
@[simp] theorem tickOn_moves : (tickOn s).moves = s.moves := rfl
@[simp] theorem tickOn_hostRead : (tickOn s).hostRead = s.hostRead := rfl
@[simp] theorem tickOn_tick : (tickOn s).tick = s.tick + 1 := rfl
@[simp] theorem tickOn_eltStart : (tickOn s).eltStart = s.eltStart := rfl
@[simp] theorem tickOn_pending : (tickOn s).pending = s.pending := rfl

@[simp] theorem markStart_state : (markStart s).state = s.state := rfl
@[simp] theorem markStart_crcMatch : (markStart s).crcMatch = s.crcMatch := rfl
@[simp] theorem markStart_errClass : (markStart s).errClass = s.errClass := rfl
@[simp] theorem markStart_errDetail : (markStart s).errDetail = s.errDetail := rfl
@[simp] theorem markStart_lastOp : (markStart s).lastOp = s.lastOp := rfl
@[simp] theorem markStart_cfg : (markStart s).cfg = s.cfg := rfl
@[simp] theorem markStart_inBase : (markStart s).inBase = s.inBase := rfl
@[simp] theorem markStart_inLen : (markStart s).inLen = s.inLen := rfl
@[simp] theorem markStart_outBase : (markStart s).outBase = s.outBase := rfl
@[simp] theorem markStart_outCap : (markStart s).outCap = s.outCap := rfl
@[simp] theorem markStart_width : (markStart s).width = s.width := rfl
@[simp] theorem markStart_height : (markStart s).height = s.height := rfl
@[simp] theorem markStart_huffN : (markStart s).huffN = s.huffN := rfl
@[simp] theorem markStart_outLen : (markStart s).outLen = s.outLen := rfl
@[simp] theorem markStart_inPos : (markStart s).inPos = s.inPos := rfl
@[simp] theorem markStart_bitCnt : (markStart s).bitCnt = s.bitCnt := rfl
@[simp] theorem markStart_bitBuf : (markStart s).bitBuf = s.bitBuf := rfl
@[simp] theorem markStart_result : (markStart s).result = s.result := rfl
@[simp] theorem markStart_errByte : (markStart s).errByte = s.errByte := rfl
@[simp] theorem markStart_errBit : (markStart s).errBit = s.errBit := rfl
@[simp] theorem markStart_crcState : (markStart s).crcState = s.crcState := rfl
@[simp] theorem markStart_st : (markStart s).st = s.st := rfl
@[simp] theorem markStart_bfinal : (markStart s).bfinal = s.bfinal := rfl
@[simp] theorem markStart_btype : (markStart s).btype = s.btype := rfl
@[simp] theorem markStart_storedRem : (markStart s).storedRem = s.storedRem := rfl
@[simp] theorem markStart_hlit : (markStart s).hlit = s.hlit := rfl
@[simp] theorem markStart_hdist : (markStart s).hdist = s.hdist := rfl
@[simp] theorem markStart_hclen : (markStart s).hclen = s.hclen := rfl
@[simp] theorem markStart_lensIdx : (markStart s).lensIdx = s.lensIdx := rfl
@[simp] theorem markStart_lens : (markStart s).lens = s.lens := rfl
@[simp] theorem markStart_clLens : (markStart s).clLens = s.clLens := rfl
@[simp] theorem markStart_lit : (markStart s).lit = s.lit := rfl
@[simp] theorem markStart_dist : (markStart s).dist = s.dist := rfl
@[simp] theorem markStart_clen : (markStart s).clen = s.clen := rfl
@[simp] theorem markStart_sfbRow : (markStart s).sfbRow = s.sfbRow := rfl
@[simp] theorem markStart_sfbFt : (markStart s).sfbFt = s.sfbFt := rfl
@[simp] theorem markStart_cmdl : (markStart s).cmdl = s.cmdl := rfl
@[simp] theorem markStart_phase : (markStart s).phase = s.phase := rfl
@[simp] theorem markStart_mem : (markStart s).mem = s.mem := rfl
@[simp] theorem markStart_moves : (markStart s).moves = s.moves := rfl
@[simp] theorem markStart_hostRead : (markStart s).hostRead = s.hostRead := rfl
@[simp] theorem markStart_tick : (markStart s).tick = s.tick := rfl
@[simp] theorem markStart_eltStart : (markStart s).eltStart = s.bp := rfl
@[simp] theorem markStart_pending : (markStart s).pending = s.pending := rfl

@[simp] theorem drawCursor_state : (drawCursor s).state = s.state := rfl
@[simp] theorem drawCursor_crcMatch : (drawCursor s).crcMatch = s.crcMatch := rfl
@[simp] theorem drawCursor_errClass : (drawCursor s).errClass = s.errClass := rfl
@[simp] theorem drawCursor_errDetail : (drawCursor s).errDetail = s.errDetail := rfl
@[simp] theorem drawCursor_lastOp : (drawCursor s).lastOp = s.lastOp := rfl
@[simp] theorem drawCursor_cfg : (drawCursor s).cfg = s.cfg := rfl
@[simp] theorem drawCursor_inBase : (drawCursor s).inBase = s.inBase := rfl
@[simp] theorem drawCursor_inLen : (drawCursor s).inLen = s.inLen := rfl
@[simp] theorem drawCursor_outBase : (drawCursor s).outBase = s.outBase := rfl
@[simp] theorem drawCursor_outCap : (drawCursor s).outCap = s.outCap := rfl
@[simp] theorem drawCursor_width : (drawCursor s).width = s.width := rfl
@[simp] theorem drawCursor_height : (drawCursor s).height = s.height := rfl
@[simp] theorem drawCursor_huffN : (drawCursor s).huffN = s.huffN := rfl
@[simp] theorem drawCursor_outLen : (drawCursor s).outLen = s.outLen := rfl
@[simp] theorem drawCursor_inPos : (drawCursor s).inPos = Config.free 32 .inPos s.tick 0 := rfl
@[simp] theorem drawCursor_bitCnt : (drawCursor s).bitCnt = Config.free 6 .bitCnt s.tick 0 := rfl
@[simp] theorem drawCursor_bitBuf : (drawCursor s).bitBuf = Config.free 64 .bitBuf s.tick 0 := rfl
@[simp] theorem drawCursor_result : (drawCursor s).result = s.result := rfl
@[simp] theorem drawCursor_errByte : (drawCursor s).errByte = s.errByte := rfl
@[simp] theorem drawCursor_errBit : (drawCursor s).errBit = s.errBit := rfl
@[simp] theorem drawCursor_crcState : (drawCursor s).crcState = s.crcState := rfl
@[simp] theorem drawCursor_st : (drawCursor s).st = s.st := rfl
@[simp] theorem drawCursor_bfinal : (drawCursor s).bfinal = s.bfinal := rfl
@[simp] theorem drawCursor_btype : (drawCursor s).btype = s.btype := rfl
@[simp] theorem drawCursor_storedRem : (drawCursor s).storedRem = s.storedRem := rfl
@[simp] theorem drawCursor_hlit : (drawCursor s).hlit = s.hlit := rfl
@[simp] theorem drawCursor_hdist : (drawCursor s).hdist = s.hdist := rfl
@[simp] theorem drawCursor_hclen : (drawCursor s).hclen = s.hclen := rfl
@[simp] theorem drawCursor_lensIdx : (drawCursor s).lensIdx = s.lensIdx := rfl
@[simp] theorem drawCursor_lens : (drawCursor s).lens = s.lens := rfl
@[simp] theorem drawCursor_clLens : (drawCursor s).clLens = s.clLens := rfl
@[simp] theorem drawCursor_lit : (drawCursor s).lit = s.lit := rfl
@[simp] theorem drawCursor_dist : (drawCursor s).dist = s.dist := rfl
@[simp] theorem drawCursor_clen : (drawCursor s).clen = s.clen := rfl
@[simp] theorem drawCursor_sfbRow : (drawCursor s).sfbRow = s.sfbRow := rfl
@[simp] theorem drawCursor_sfbFt : (drawCursor s).sfbFt = s.sfbFt := rfl
@[simp] theorem drawCursor_cmdl : (drawCursor s).cmdl = s.cmdl := rfl
@[simp] theorem drawCursor_phase : (drawCursor s).phase = s.phase := rfl
@[simp] theorem drawCursor_mem : (drawCursor s).mem = s.mem := rfl
@[simp] theorem drawCursor_moves : (drawCursor s).moves = s.moves := rfl
@[simp] theorem drawCursor_hostRead : (drawCursor s).hostRead = s.hostRead := rfl
@[simp] theorem drawCursor_tick : (drawCursor s).tick = s.tick := rfl
@[simp] theorem drawCursor_eltStart : (drawCursor s).eltStart = s.eltStart := rfl
@[simp] theorem drawCursor_pending : (drawCursor s).pending = s.pending := rfl

@[simp] theorem drawResult_state : (drawResult s).state = s.state := rfl
@[simp] theorem drawResult_crcMatch : (drawResult s).crcMatch = s.crcMatch := rfl
@[simp] theorem drawResult_errClass : (drawResult s).errClass = s.errClass := rfl
@[simp] theorem drawResult_errDetail : (drawResult s).errDetail = s.errDetail := rfl
@[simp] theorem drawResult_lastOp : (drawResult s).lastOp = s.lastOp := rfl
@[simp] theorem drawResult_cfg : (drawResult s).cfg = s.cfg := rfl
@[simp] theorem drawResult_inBase : (drawResult s).inBase = s.inBase := rfl
@[simp] theorem drawResult_inLen : (drawResult s).inLen = s.inLen := rfl
@[simp] theorem drawResult_outBase : (drawResult s).outBase = s.outBase := rfl
@[simp] theorem drawResult_outCap : (drawResult s).outCap = s.outCap := rfl
@[simp] theorem drawResult_width : (drawResult s).width = s.width := rfl
@[simp] theorem drawResult_height : (drawResult s).height = s.height := rfl
@[simp] theorem drawResult_huffN : (drawResult s).huffN = s.huffN := rfl
@[simp] theorem drawResult_outLen : (drawResult s).outLen = s.outLen := rfl
@[simp] theorem drawResult_inPos : (drawResult s).inPos = s.inPos := rfl
@[simp] theorem drawResult_bitCnt : (drawResult s).bitCnt = s.bitCnt := rfl
@[simp] theorem drawResult_bitBuf : (drawResult s).bitBuf = s.bitBuf := rfl
@[simp] theorem drawResult_result : (drawResult s).result = Config.free 32 .result s.tick 0 := rfl
@[simp] theorem drawResult_errByte : (drawResult s).errByte = s.errByte := rfl
@[simp] theorem drawResult_errBit : (drawResult s).errBit = s.errBit := rfl
@[simp] theorem drawResult_crcState : (drawResult s).crcState = s.crcState := rfl
@[simp] theorem drawResult_st : (drawResult s).st = s.st := rfl
@[simp] theorem drawResult_bfinal : (drawResult s).bfinal = s.bfinal := rfl
@[simp] theorem drawResult_btype : (drawResult s).btype = s.btype := rfl
@[simp] theorem drawResult_storedRem : (drawResult s).storedRem = s.storedRem := rfl
@[simp] theorem drawResult_hlit : (drawResult s).hlit = s.hlit := rfl
@[simp] theorem drawResult_hdist : (drawResult s).hdist = s.hdist := rfl
@[simp] theorem drawResult_hclen : (drawResult s).hclen = s.hclen := rfl
@[simp] theorem drawResult_lensIdx : (drawResult s).lensIdx = s.lensIdx := rfl
@[simp] theorem drawResult_lens : (drawResult s).lens = s.lens := rfl
@[simp] theorem drawResult_clLens : (drawResult s).clLens = s.clLens := rfl
@[simp] theorem drawResult_lit : (drawResult s).lit = s.lit := rfl
@[simp] theorem drawResult_dist : (drawResult s).dist = s.dist := rfl
@[simp] theorem drawResult_clen : (drawResult s).clen = s.clen := rfl
@[simp] theorem drawResult_sfbRow : (drawResult s).sfbRow = s.sfbRow := rfl
@[simp] theorem drawResult_sfbFt : (drawResult s).sfbFt = s.sfbFt := rfl
@[simp] theorem drawResult_cmdl : (drawResult s).cmdl = s.cmdl := rfl
@[simp] theorem drawResult_phase : (drawResult s).phase = s.phase := rfl
@[simp] theorem drawResult_mem : (drawResult s).mem = s.mem := rfl
@[simp] theorem drawResult_moves : (drawResult s).moves = s.moves := rfl
@[simp] theorem drawResult_hostRead : (drawResult s).hostRead = s.hostRead := rfl
@[simp] theorem drawResult_tick : (drawResult s).tick = s.tick := rfl
@[simp] theorem drawResult_eltStart : (drawResult s).eltStart = s.eltStart := rfl
@[simp] theorem drawResult_pending : (drawResult s).pending = s.pending := rfl

@[simp] theorem drawOut_state : (drawOut s).state = s.state := rfl
@[simp] theorem drawOut_crcMatch : (drawOut s).crcMatch = s.crcMatch := rfl
@[simp] theorem drawOut_errClass : (drawOut s).errClass = s.errClass := rfl
@[simp] theorem drawOut_errDetail : (drawOut s).errDetail = s.errDetail := rfl
@[simp] theorem drawOut_lastOp : (drawOut s).lastOp = s.lastOp := rfl
@[simp] theorem drawOut_cfg : (drawOut s).cfg = s.cfg := rfl
@[simp] theorem drawOut_inBase : (drawOut s).inBase = s.inBase := rfl
@[simp] theorem drawOut_inLen : (drawOut s).inLen = s.inLen := rfl
@[simp] theorem drawOut_outBase : (drawOut s).outBase = s.outBase := rfl
@[simp] theorem drawOut_outCap : (drawOut s).outCap = s.outCap := rfl
@[simp] theorem drawOut_width : (drawOut s).width = s.width := rfl
@[simp] theorem drawOut_height : (drawOut s).height = s.height := rfl
@[simp] theorem drawOut_huffN : (drawOut s).huffN = s.huffN := rfl
@[simp] theorem drawOut_outLen : (drawOut s).outLen = Config.free 32 .outLen s.tick 0 := rfl
@[simp] theorem drawOut_inPos : (drawOut s).inPos = s.inPos := rfl
@[simp] theorem drawOut_bitCnt : (drawOut s).bitCnt = s.bitCnt := rfl
@[simp] theorem drawOut_bitBuf : (drawOut s).bitBuf = s.bitBuf := rfl
@[simp] theorem drawOut_result : (drawOut s).result = s.result := rfl
@[simp] theorem drawOut_errByte : (drawOut s).errByte = s.errByte := rfl
@[simp] theorem drawOut_errBit : (drawOut s).errBit = s.errBit := rfl
@[simp] theorem drawOut_crcState : (drawOut s).crcState = s.crcState := rfl
@[simp] theorem drawOut_st : (drawOut s).st = s.st := rfl
@[simp] theorem drawOut_bfinal : (drawOut s).bfinal = s.bfinal := rfl
@[simp] theorem drawOut_btype : (drawOut s).btype = s.btype := rfl
@[simp] theorem drawOut_storedRem : (drawOut s).storedRem = s.storedRem := rfl
@[simp] theorem drawOut_hlit : (drawOut s).hlit = s.hlit := rfl
@[simp] theorem drawOut_hdist : (drawOut s).hdist = s.hdist := rfl
@[simp] theorem drawOut_hclen : (drawOut s).hclen = s.hclen := rfl
@[simp] theorem drawOut_lensIdx : (drawOut s).lensIdx = s.lensIdx := rfl
@[simp] theorem drawOut_lens : (drawOut s).lens = s.lens := rfl
@[simp] theorem drawOut_clLens : (drawOut s).clLens = s.clLens := rfl
@[simp] theorem drawOut_lit : (drawOut s).lit = s.lit := rfl
@[simp] theorem drawOut_dist : (drawOut s).dist = s.dist := rfl
@[simp] theorem drawOut_clen : (drawOut s).clen = s.clen := rfl
@[simp] theorem drawOut_sfbRow : (drawOut s).sfbRow = s.sfbRow := rfl
@[simp] theorem drawOut_sfbFt : (drawOut s).sfbFt = s.sfbFt := rfl
@[simp] theorem drawOut_cmdl : (drawOut s).cmdl = s.cmdl := rfl
@[simp] theorem drawOut_phase : (drawOut s).phase = s.phase := rfl
@[simp] theorem drawOut_mem : (drawOut s).mem = drawBytes s.tick s.outBase s.outSize s.mem := rfl
@[simp] theorem drawOut_moves : (drawOut s).moves = s.moves := rfl
@[simp] theorem drawOut_hostRead : (drawOut s).hostRead = s.hostRead := rfl
@[simp] theorem drawOut_tick : (drawOut s).tick = s.tick := rfl
@[simp] theorem drawOut_eltStart : (drawOut s).eltStart = s.eltStart := rfl
@[simp] theorem drawOut_pending : (drawOut s).pending = s.pending := rfl

@[simp] theorem drawLens_state : (drawLens s).state = s.state := rfl
@[simp] theorem drawLens_crcMatch : (drawLens s).crcMatch = s.crcMatch := rfl
@[simp] theorem drawLens_errClass : (drawLens s).errClass = s.errClass := rfl
@[simp] theorem drawLens_errDetail : (drawLens s).errDetail = s.errDetail := rfl
@[simp] theorem drawLens_lastOp : (drawLens s).lastOp = s.lastOp := rfl
@[simp] theorem drawLens_cfg : (drawLens s).cfg = s.cfg := rfl
@[simp] theorem drawLens_inBase : (drawLens s).inBase = s.inBase := rfl
@[simp] theorem drawLens_inLen : (drawLens s).inLen = s.inLen := rfl
@[simp] theorem drawLens_outBase : (drawLens s).outBase = s.outBase := rfl
@[simp] theorem drawLens_outCap : (drawLens s).outCap = s.outCap := rfl
@[simp] theorem drawLens_width : (drawLens s).width = s.width := rfl
@[simp] theorem drawLens_height : (drawLens s).height = s.height := rfl
@[simp] theorem drawLens_huffN : (drawLens s).huffN = s.huffN := rfl
@[simp] theorem drawLens_outLen : (drawLens s).outLen = s.outLen := rfl
@[simp] theorem drawLens_inPos : (drawLens s).inPos = s.inPos := rfl
@[simp] theorem drawLens_bitCnt : (drawLens s).bitCnt = s.bitCnt := rfl
@[simp] theorem drawLens_bitBuf : (drawLens s).bitBuf = s.bitBuf := rfl
@[simp] theorem drawLens_result : (drawLens s).result = s.result := rfl
@[simp] theorem drawLens_errByte : (drawLens s).errByte = s.errByte := rfl
@[simp] theorem drawLens_errBit : (drawLens s).errBit = s.errBit := rfl
@[simp] theorem drawLens_crcState : (drawLens s).crcState = s.crcState := rfl
@[simp] theorem drawLens_st : (drawLens s).st = s.st := rfl
@[simp] theorem drawLens_bfinal : (drawLens s).bfinal = s.bfinal := rfl
@[simp] theorem drawLens_btype : (drawLens s).btype = s.btype := rfl
@[simp] theorem drawLens_storedRem : (drawLens s).storedRem = s.storedRem := rfl
@[simp] theorem drawLens_hlit : (drawLens s).hlit = s.hlit := rfl
@[simp] theorem drawLens_hdist : (drawLens s).hdist = s.hdist := rfl
@[simp] theorem drawLens_hclen : (drawLens s).hclen = s.hclen := rfl
@[simp] theorem drawLens_lensIdx : (drawLens s).lensIdx = s.lensIdx := rfl
@[simp] theorem drawLens_lens : (drawLens s).lens = (List.range Config.lensCap).map (Config.free 4 .lens s.tick) := rfl
@[simp] theorem drawLens_clLens : (drawLens s).clLens = (List.range Config.clenCap).map (Config.free 3 .clLens s.tick) := rfl
@[simp] theorem drawLens_lit : (drawLens s).lit = s.lit := rfl
@[simp] theorem drawLens_dist : (drawLens s).dist = s.dist := rfl
@[simp] theorem drawLens_clen : (drawLens s).clen = s.clen := rfl
@[simp] theorem drawLens_sfbRow : (drawLens s).sfbRow = s.sfbRow := rfl
@[simp] theorem drawLens_sfbFt : (drawLens s).sfbFt = s.sfbFt := rfl
@[simp] theorem drawLens_cmdl : (drawLens s).cmdl = s.cmdl := rfl
@[simp] theorem drawLens_phase : (drawLens s).phase = s.phase := rfl
@[simp] theorem drawLens_mem : (drawLens s).mem = s.mem := rfl
@[simp] theorem drawLens_moves : (drawLens s).moves = s.moves := rfl
@[simp] theorem drawLens_hostRead : (drawLens s).hostRead = s.hostRead := rfl
@[simp] theorem drawLens_tick : (drawLens s).tick = s.tick := rfl
@[simp] theorem drawLens_eltStart : (drawLens s).eltStart = s.eltStart := rfl
@[simp] theorem drawLens_pending : (drawLens s).pending = s.pending := rfl

@[simp] theorem drawDbd_state : (drawDbd s).state = s.state := rfl
@[simp] theorem drawDbd_crcMatch : (drawDbd s).crcMatch = s.crcMatch := rfl
@[simp] theorem drawDbd_errClass : (drawDbd s).errClass = s.errClass := rfl
@[simp] theorem drawDbd_errDetail : (drawDbd s).errDetail = s.errDetail := rfl
@[simp] theorem drawDbd_lastOp : (drawDbd s).lastOp = s.lastOp := rfl
@[simp] theorem drawDbd_cfg : (drawDbd s).cfg = s.cfg := rfl
@[simp] theorem drawDbd_inBase : (drawDbd s).inBase = s.inBase := rfl
@[simp] theorem drawDbd_inLen : (drawDbd s).inLen = s.inLen := rfl
@[simp] theorem drawDbd_outBase : (drawDbd s).outBase = s.outBase := rfl
@[simp] theorem drawDbd_outCap : (drawDbd s).outCap = s.outCap := rfl
@[simp] theorem drawDbd_width : (drawDbd s).width = s.width := rfl
@[simp] theorem drawDbd_height : (drawDbd s).height = s.height := rfl
@[simp] theorem drawDbd_huffN : (drawDbd s).huffN = s.huffN := rfl
@[simp] theorem drawDbd_outLen : (drawDbd s).outLen = s.outLen := rfl
@[simp] theorem drawDbd_inPos : (drawDbd s).inPos = s.inPos := rfl
@[simp] theorem drawDbd_bitCnt : (drawDbd s).bitCnt = s.bitCnt := rfl
@[simp] theorem drawDbd_bitBuf : (drawDbd s).bitBuf = s.bitBuf := rfl
@[simp] theorem drawDbd_result : (drawDbd s).result = s.result := rfl
@[simp] theorem drawDbd_errByte : (drawDbd s).errByte = s.errByte := rfl
@[simp] theorem drawDbd_errBit : (drawDbd s).errBit = s.errBit := rfl
@[simp] theorem drawDbd_crcState : (drawDbd s).crcState = s.crcState := rfl
@[simp] theorem drawDbd_st : (drawDbd s).st = s.st := rfl
@[simp] theorem drawDbd_bfinal : (drawDbd s).bfinal = Config.free 1 .bfinal s.tick 0 := rfl
@[simp] theorem drawDbd_btype : (drawDbd s).btype = Config.free 2 .btype s.tick 0 := rfl
@[simp] theorem drawDbd_storedRem : (drawDbd s).storedRem = Config.free 16 .storedRem s.tick 0 := rfl
@[simp] theorem drawDbd_hlit : (drawDbd s).hlit = Config.free 9 .hlit s.tick 0 := rfl
@[simp] theorem drawDbd_hdist : (drawDbd s).hdist = Config.free 6 .hdist s.tick 0 := rfl
@[simp] theorem drawDbd_hclen : (drawDbd s).hclen = Config.free 5 .hclen s.tick 0 := rfl
@[simp] theorem drawDbd_lensIdx : (drawDbd s).lensIdx = Config.free 9 .lensIdx s.tick 0 := rfl
@[simp] theorem drawDbd_lens :
    (drawDbd s).lens = (List.range Config.lensCap).map (Config.free 4 .lens s.tick) := by unfold drawDbd; exact drawLens_lens _
@[simp] theorem drawDbd_clLens :
    (drawDbd s).clLens = (List.range Config.clenCap).map (Config.free 3 .clLens s.tick) := by unfold drawDbd; exact drawLens_clLens _
@[simp] theorem drawDbd_lit : (drawDbd s).lit = s.lit := rfl
@[simp] theorem drawDbd_dist : (drawDbd s).dist = s.dist := rfl
@[simp] theorem drawDbd_clen : (drawDbd s).clen = s.clen := rfl
@[simp] theorem drawDbd_sfbRow : (drawDbd s).sfbRow = s.sfbRow := rfl
@[simp] theorem drawDbd_sfbFt : (drawDbd s).sfbFt = s.sfbFt := rfl
@[simp] theorem drawDbd_cmdl : (drawDbd s).cmdl = s.cmdl := rfl
@[simp] theorem drawDbd_phase : (drawDbd s).phase = s.phase := rfl
@[simp] theorem drawDbd_mem : (drawDbd s).mem = s.mem := rfl
@[simp] theorem drawDbd_moves : (drawDbd s).moves = s.moves := rfl
@[simp] theorem drawDbd_hostRead : (drawDbd s).hostRead = s.hostRead := rfl
@[simp] theorem drawDbd_tick : (drawDbd s).tick = s.tick := rfl
@[simp] theorem drawDbd_eltStart : (drawDbd s).eltStart = s.eltStart := rfl
@[simp] theorem drawDbd_pending : (drawDbd s).pending = s.pending := rfl

@[simp] theorem drawSfb_state : (drawSfb s).state = s.state := rfl
@[simp] theorem drawSfb_crcMatch : (drawSfb s).crcMatch = s.crcMatch := rfl
@[simp] theorem drawSfb_errClass : (drawSfb s).errClass = s.errClass := rfl
@[simp] theorem drawSfb_errDetail : (drawSfb s).errDetail = s.errDetail := rfl
@[simp] theorem drawSfb_lastOp : (drawSfb s).lastOp = s.lastOp := rfl
@[simp] theorem drawSfb_cfg : (drawSfb s).cfg = s.cfg := rfl
@[simp] theorem drawSfb_inBase : (drawSfb s).inBase = s.inBase := rfl
@[simp] theorem drawSfb_inLen : (drawSfb s).inLen = s.inLen := rfl
@[simp] theorem drawSfb_outBase : (drawSfb s).outBase = s.outBase := rfl
@[simp] theorem drawSfb_outCap : (drawSfb s).outCap = s.outCap := rfl
@[simp] theorem drawSfb_width : (drawSfb s).width = s.width := rfl
@[simp] theorem drawSfb_height : (drawSfb s).height = s.height := rfl
@[simp] theorem drawSfb_huffN : (drawSfb s).huffN = s.huffN := rfl
@[simp] theorem drawSfb_outLen : (drawSfb s).outLen = s.outLen := rfl
@[simp] theorem drawSfb_inPos : (drawSfb s).inPos = s.inPos := rfl
@[simp] theorem drawSfb_bitCnt : (drawSfb s).bitCnt = s.bitCnt := rfl
@[simp] theorem drawSfb_bitBuf : (drawSfb s).bitBuf = s.bitBuf := rfl
@[simp] theorem drawSfb_result : (drawSfb s).result = s.result := rfl
@[simp] theorem drawSfb_errByte : (drawSfb s).errByte = s.errByte := rfl
@[simp] theorem drawSfb_errBit : (drawSfb s).errBit = s.errBit := rfl
@[simp] theorem drawSfb_crcState : (drawSfb s).crcState = s.crcState := rfl
@[simp] theorem drawSfb_st : (drawSfb s).st = s.st := rfl
@[simp] theorem drawSfb_bfinal : (drawSfb s).bfinal = s.bfinal := rfl
@[simp] theorem drawSfb_btype : (drawSfb s).btype = s.btype := rfl
@[simp] theorem drawSfb_storedRem : (drawSfb s).storedRem = s.storedRem := rfl
@[simp] theorem drawSfb_hlit : (drawSfb s).hlit = s.hlit := rfl
@[simp] theorem drawSfb_hdist : (drawSfb s).hdist = s.hdist := rfl
@[simp] theorem drawSfb_hclen : (drawSfb s).hclen = s.hclen := rfl
@[simp] theorem drawSfb_lensIdx : (drawSfb s).lensIdx = s.lensIdx := rfl
@[simp] theorem drawSfb_lens : (drawSfb s).lens = s.lens := rfl
@[simp] theorem drawSfb_clLens : (drawSfb s).clLens = s.clLens := rfl
@[simp] theorem drawSfb_lit : (drawSfb s).lit = s.lit := rfl
@[simp] theorem drawSfb_dist : (drawSfb s).dist = s.dist := rfl
@[simp] theorem drawSfb_clen : (drawSfb s).clen = s.clen := rfl
@[simp] theorem drawSfb_sfbRow : (drawSfb s).sfbRow = Config.free 32 .sfbRow s.tick 0 := rfl
@[simp] theorem drawSfb_sfbFt : (drawSfb s).sfbFt = Config.free 3 .sfbFt s.tick 0 := rfl
@[simp] theorem drawSfb_cmdl : (drawSfb s).cmdl = s.cmdl := rfl
@[simp] theorem drawSfb_phase : (drawSfb s).phase = s.phase := rfl
@[simp] theorem drawSfb_mem : (drawSfb s).mem = s.mem := rfl
@[simp] theorem drawSfb_moves : (drawSfb s).moves = s.moves := rfl
@[simp] theorem drawSfb_hostRead : (drawSfb s).hostRead = s.hostRead := rfl
@[simp] theorem drawSfb_tick : (drawSfb s).tick = s.tick := rfl
@[simp] theorem drawSfb_eltStart : (drawSfb s).eltStart = s.eltStart := rfl
@[simp] theorem drawSfb_pending : (drawSfb s).pending = s.pending := rfl

end Sys2Proof.Machine
end

