-- ==== Sys2Proof/Laws/Memory.lean ====
section
/-! SUPPORT. The bytes of M: read after write, the canonical form, addresses of a window, and the operations that write many
bytes. -/

namespace Sys2Proof.Machine

/-! ## One byte -/

theorem Memory.read_insert_same (m : List Host.Cell) (a : Nat) (v : Byte) : Memory.read (Memory.insert m a v) a = v := by
  induction m with
  | nil => simp [Memory.insert, Memory.read]
  | cons c m ih =>
    obtain ⟨k, w⟩ := c
    unfold Memory.insert
    split
    · simp [Memory.read]
    · split
      · simp [Memory.read]
      · rename_i h; simp [Memory.read, Ne.symm h, ih]

theorem Memory.read_insert_other (m : List Host.Cell) {a b : Nat} (v : Byte) (h : b ≠ a) :
    Memory.read (Memory.insert m a v) b = Memory.read m b := by
  induction m with
  | nil => simp [Memory.insert, Memory.read, Ne.symm h]
  | cons c m ih =>
    obtain ⟨k, w⟩ := c
    unfold Memory.insert
    split
    · simp [Memory.read, Ne.symm h]
    · split
      · rename_i hk; subst hk; simp [Memory.read, Ne.symm h]
      · simp [Memory.read, ih]

theorem Memory.read_erase_same (m : List Host.Cell) (a : Nat) : Memory.read (Memory.erase m a) a = Config.unlistedByte := by
  induction m with
  | nil => rfl
  | cons c m ih =>
    obtain ⟨k, w⟩ := c
    unfold Memory.erase
    split
    · exact ih
    · rename_i h; simp [Memory.read, h, ih]

theorem Memory.read_erase_other (m : List Host.Cell) {a b : Nat} (h : b ≠ a) :
    Memory.read (Memory.erase m a) b = Memory.read m b := by
  induction m with
  | nil => rfl
  | cons c m ih =>
    obtain ⟨k, w⟩ := c
    unfold Memory.erase
    split
    · rename_i hk; subst hk; simp [Memory.read, Ne.symm h, ih]
    · simp [Memory.read, ih]

@[simp] theorem Memory.read_write_same (m : List Host.Cell) (a : Nat) (v : Byte) :
    Memory.read (Memory.write m a v) a = v := by
  unfold Memory.write
  split
  · rename_i h; rw [h]; exact Memory.read_erase_same m a
  · exact Memory.read_insert_same m a v

theorem Memory.read_write_other (m : List Host.Cell) {a b : Nat} (v : Byte) (h : b ≠ a) :
    Memory.read (Memory.write m a v) b = Memory.read m b := by
  unfold Memory.write
  split
  · exact Memory.read_erase_other m h
  · exact Memory.read_insert_other m v h

theorem Memory.read_write (m : List Host.Cell) (a b : Nat) (v : Byte) :
    Memory.read (Memory.write m a v) b = if b = a then v else Memory.read m b := by
  split
  · rename_i h; subst h; simp
  · rename_i h; exact Memory.read_write_other m v h

/-! ## The canonical form -/

theorem Memory.wf_nil : Memory.wf [] := by simp [Memory.wf]

theorem Memory.mem_insert {m : List Host.Cell} {a : Nat} {v : Byte} {c : Host.Cell} (h : c ∈ Memory.insert m a v) :
    c = (a, v) ∨ c ∈ m := by
  induction m with
  | nil => simpa [Memory.insert] using h
  | cons d m ih =>
    obtain ⟨k, w⟩ := d
    unfold Memory.insert at h
    split at h
    · simpa using h
    · split at h
      · rcases List.mem_cons.1 h with h | h <;> simp [h]
      · rcases List.mem_cons.1 h with h | h
        · simp [h]
        · rcases ih h with h | h <;> simp [h]

theorem Memory.erase_sublist (m : List Host.Cell) (a : Nat) : (Memory.erase m a).Sublist m := by
  induction m with
  | nil => exact List.Sublist.refl _
  | cons c m ih =>
    obtain ⟨k, w⟩ := c
    unfold Memory.erase
    split
    · exact ih.trans (List.sublist_cons_self _ _)
    · exact ih.cons_cons _

theorem Memory.wf_erase {m : List Host.Cell} (h : Memory.wf m) (a : Nat) : Memory.wf (Memory.erase m a) :=
  ⟨h.1.sublist (Memory.erase_sublist m a), fun c hc => h.2 c ((Memory.erase_sublist m a).subset hc)⟩

theorem Memory.pairwise_insert {m : List Host.Cell} (h : m.Pairwise (fun p q => p.1 < q.1)) (a : Nat) (v : Byte) :
    (Memory.insert m a v).Pairwise (fun p q => p.1 < q.1) := by
  induction m with
  | nil => simp [Memory.insert]
  | cons c m ih =>
    obtain ⟨k, w⟩ := c
    rw [List.pairwise_cons] at h
    unfold Memory.insert
    split
    · rename_i hk
      refine List.pairwise_cons.2 ⟨fun p hp => ?_, List.pairwise_cons.2 h⟩
      rcases List.mem_cons.1 hp with rfl | hp
      · exact hk
      · exact Nat.lt_trans hk (h.1 p hp)
    · split
      · rename_i hk; subst hk; exact List.pairwise_cons.2 h
      · rename_i h1 h2
        refine List.pairwise_cons.2 ⟨fun p hp => ?_, ih h.2⟩
        rcases Memory.mem_insert hp with rfl | hp
        · simp only; omega
        · exact h.1 p hp

theorem Memory.wf_write {m : List Host.Cell} (h : Memory.wf m) {a : Nat} (ha : a < 2 ^ 32) (v : Byte) :
    Memory.wf (Memory.write m a v) := by
  unfold Memory.write
  split
  · exact Memory.wf_erase h a
  · rename_i hv
    refine ⟨Memory.pairwise_insert h.1 a v, fun c hc => ?_⟩
    rcases Memory.mem_insert hc with rfl | hc
    · exact ⟨ha, hv⟩
    · exact h.2 c hc

/-! ## Addresses of a window -/

theorem windowAddr_lt (base : Addr) (off : Nat) : windowAddr base off < 2 ^ 32 := (base + BitVec.ofNat 32 off).isLt

theorem windowAddr_of_lt {base : Addr} {off : Nat} (h : base.toNat + off < 2 ^ 32) :
    windowAddr base off = base.toNat + off := by
  simp only [windowAddr, BitVec.toNat_add, BitVec.toNat_ofNat]
  omega

theorem windowAddr_inj {base : Addr} {i j : Nat} (hi : i < 2 ^ 32) (hj : j < 2 ^ 32)
    (h : windowAddr base i = windowAddr base j) : i = j := by
  simp only [windowAddr, BitVec.toNat_add, BitVec.toNat_ofNat] at h
  have := base.isLt
  omega

/-! ## Many bytes -/

@[simp] theorem memRead_memWrite (s : State) (a b : Nat) (v : Byte) :
    (s.memWrite a v).memRead b = if b = a then v else s.memRead b := Memory.read_write s.mem a b v

theorem drawBytes_read {tick : Nat} {base : Addr} {n : Nat} {m : List Host.Cell} {a : Nat}
    (h : ∀ k, k < n → a ≠ windowAddr base k) : Memory.read (drawBytes tick base n m) a = Memory.read m a := by
  induction n generalizing m with
  | zero => rfl
  | succ n ih =>
    rw [drawBytes, ih (fun k hk => h k (by omega)), Memory.read_write_other _ _ (h n (by omega))]

theorem drawBytes_wf {tick : Nat} {base : Addr} {n : Nat} {m : List Host.Cell} (h : Memory.wf m) :
    Memory.wf (drawBytes tick base n m) := by
  induction n generalizing m with
  | zero => exact h
  | succ n ih => exact ih (Memory.wf_write h (windowAddr_lt _ _) _)

theorem defilterBytes_wf {pred : Byte → Byte → Byte → Byte} {i o : Addr} {stride r n x : Nat} {m : List Host.Cell}
    (h : Memory.wf m) : Memory.wf (defilterBytes pred i o stride r n x m) := by
  induction n generalizing x m with
  | zero => exact h
  | succ n ih => exact ih (Memory.wf_write h (windowAddr_lt _ _) _)

theorem filterBytes_wf {pred : Byte → Byte → Byte → Byte} {i o : Addr} {stride r n x : Nat} {m : List Host.Cell}
    (h : Memory.wf m) : Memory.wf (filterBytes pred i o stride r n x m) := by
  induction n generalizing x m with
  | zero => exact h
  | succ n ih => exact ih (Memory.wf_write h (windowAddr_lt _ _) _)

theorem defilterBytes_read {pred : Byte → Byte → Byte → Byte} {i o : Addr} {stride r n x a : Nat} {m : List Host.Cell}
    (h : ∀ k, k < n → a ≠ windowAddr o (r * stride + (x + k))) :
    Memory.read (defilterBytes pred i o stride r n x m) a = Memory.read m a := by
  induction n generalizing x m with
  | zero => rfl
  | succ n ih =>
    rw [defilterBytes, ih (fun k hk => by have := h (k + 1) (by omega); rwa [show x + (k + 1) = x + 1 + k by omega] at this),
      Memory.read_write_other _ _ (by simpa using h 0 (by omega))]

theorem filterBytes_read {pred : Byte → Byte → Byte → Byte} {i o : Addr} {stride r n x a : Nat} {m : List Host.Cell}
    (h : ∀ k, k < n → a ≠ windowAddr o (r * (stride + 1) + 1 + (x + k))) :
    Memory.read (filterBytes pred i o stride r n x m) a = Memory.read m a := by
  induction n generalizing x m with
  | zero => rfl
  | succ n ih =>
    rw [filterBytes, ih (fun k hk => by have := h (k + 1) (by omega); rwa [show x + (k + 1) = x + 1 + k by omega] at this),
      Memory.read_write_other _ _ (by simpa using h 0 (by omega))]

theorem placeBytes_wf {base : Addr} {n k : Nat} {bits : List Bool} {m : List Host.Cell} (h : Memory.wf m) :
    Memory.wf (placeBytes base n k bits m) := by
  induction n generalizing k bits m with
  | zero => exact h
  | succ n ih => exact ih (Memory.wf_write h (windowAddr_lt _ _) _)

/-- M after reset is in the canonical form. -/
theorem reset_mem_wf : Memory.wf State.reset.mem := Memory.wf_nil

end Sys2Proof.Machine
end

