-- ==== Sys2Proof/Laws/Ops.lean ====
section
/-! SUPPORT. What each shared operation can do: sequencing, output, copies, the cursor, raising, tables, and that every meaning
answers a next state. -/

namespace Sys2Proof.Machine

/-! ## Sequencing -/

@[simp] theorem andThen_next (t : State) (f : State → Result) : andThen (.next t) f = f t := rfl

theorem andThen_eq_next {r : Result} {f : State → Result} {t : State} :
    andThen r f = .next t ↔ ∃ u, r = .next u ∧ f u = .next t := by
  cases r <;> simp [andThen]

theorem step_eq_next {s t : State} : step s = .next t ↔ ∃ u, turn s = .next u ∧ t = tickOn u := by
  unfold step
  rw [andThen_eq_next]
  constructor
  · rintro ⟨u, h, e⟩; exact ⟨u, h, by cases e; rfl⟩
  · rintro ⟨u, h, rfl⟩; exact ⟨u, h, rfl⟩

@[simp] theorem orRaise_ok (s t : State) : orRaise s (.ok t) = .next t := rfl

@[simp] theorem orRaise_error (s : State) (d : ErrDetail) : orRaise s (.error d) = .next (raiseInflate d s) := rfl

theorem orRaise_next (s : State) (r : Except ErrDetail State) : ∃ t, orRaise s r = .next t := by
  cases r <;> exact ⟨_, rfl⟩

/-! ## Output (R138, R165) -/

theorem emit_full {s : State} (v : Byte) (h : s.outLen = s.outCap) : emit v s = .error .outOverflow := by simp [emit, h]

theorem emit_room {s : State} (v : Byte) (h : s.outLen ≠ s.outCap) :
    emit v s = .ok { s.memWrite (windowAddr s.outBase s.outLen.toNat) v with outLen := s.outLen + 1 } := by simp [emit, h]

/-- All that Copy can do: it writes M in OUT and OUT_LEN, or raises OUT_OVERFLOW. -/
theorem copy_cases (len dist : Nat) (s : State) :
    copy len dist s = .error .outOverflow ∨
      ∃ t, copy len dist s = .ok t ∧ t = { s with mem := t.mem, outLen := t.outLen } ∧
        (Memory.wf s.mem → Memory.wf t.mem) := by
  induction len generalizing s with
  | zero => exact .inr ⟨s, rfl, rfl, id⟩
  | succ n ih =>
    unfold copy
    by_cases h : s.outLen = s.outCap
    · left; rw [emit_full _ h]
    · rw [emit_room _ h]
      rcases ih { s.memWrite (windowAddr s.outBase s.outLen.toNat)
        (s.memRead (windowAddr s.outBase (s.outLen.toNat - dist))) with outLen := s.outLen + 1 } with h | ⟨t, h, e, w⟩
      · exact .inl h
      · refine .inr ⟨t, h, ?_, fun hw => w (Memory.wf_write hw (windowAddr_lt _ _) _)⟩
        rw [e]; rfl

/-- Copy with room: OUT_LEN counts on, the bytes are copied one at a time, and no other byte changes. -/
theorem copy_room {len dist : Nat} {s : State} (hd : dist ≤ s.outLen.toNat) (hd1 : 1 ≤ dist)
    (h : s.outLen.toNat + len ≤ s.outCap.toNat) :
    ∃ t, copy len dist s = .ok t ∧ t.outLen.toNat = s.outLen.toNat + len ∧
      t.produced = copyBytes dist len s.produced ∧ s.outOnly t s.outLen.toNat len ∧
      t = { s with mem := t.mem, outLen := t.outLen } := by
  induction len generalizing s with
  | zero => exact ⟨s, rfl, rfl, rfl, fun _ _ => rfl, rfl⟩
  | succ n ih =>
    have hcap := s.outCap.isLt
    have hne : s.outLen ≠ s.outCap := by
      intro e; rw [e] at h; omega
    unfold copy
    rw [emit_room _ hne]
    simp only
    generalize hb : s.memRead (windowAddr s.outBase (s.outLen.toNat - dist)) = b
    have hl : (s.outLen + 1).toNat = s.outLen.toNat + 1 := by
      rw [BitVec.toNat_add]; simp; omega
    obtain ⟨t, ht, hlen, hp, ho, hf⟩ := ih
      (s := { s.memWrite (windowAddr s.outBase s.outLen.toNat) b with outLen := s.outLen + 1 })
      (by show dist ≤ (s.outLen + 1).toNat; omega) (by show (s.outLen + 1).toNat + n ≤ s.outCap.toNat; omega)
    have hlen' : t.outLen.toNat = s.outLen.toNat + (n + 1) := by rw [hlen]; show (s.outLen + 1).toNat + n = _; omega
    refine ⟨t, ht, hlen', ?_, ?_, by rw [hf]; rfl⟩
    · rw [hp, copyBytes]
      congr 1
      unfold State.produced
      show (List.range (s.outLen + 1).toNat).map _ = _
      rw [hl, List.range_succ, List.map_append]
      congr 1
      · refine List.map_congr_left fun k hk => ?_
        have hk := List.mem_range.1 hk
        show Memory.read (Memory.write _ _ _) _ = _
        rw [Memory.read_write, if_neg]; rfl
        intro e
        have := windowAddr_inj (by omega) (by omega) e
        omega
      · simp only [List.map_cons, List.map_nil, List.length_map, List.length_range]
        congr 1
        show Memory.read (Memory.write s.mem _ _) _ = _
        rw [Memory.read_write]
        show (if windowAddr s.outBase s.outLen.toNat = windowAddr s.outBase s.outLen.toNat then b else _) = _
        rw [if_pos rfl, ← hb, List.getD_eq_getElem?_getD, List.getElem?_map,
          List.getElem?_range (by omega)]
        rfl
    · intro a ha
      rw [ho a fun k hk => by
        have := ha (k + 1) (by omega)
        show a ≠ windowAddr s.outBase ((s.outLen + 1).toNat + k)
        rwa [hl, show s.outLen.toNat + 1 + k = s.outLen.toNat + (k + 1) by omega]]
      show Memory.read (Memory.write _ _ _) _ = _
      rw [Memory.read_write_other _ _ (by simpa using ha 0 (by omega))]; rfl

/-- Copy without room fills OUT and raises. -/
theorem copy_full {len dist : Nat} {s : State} (h1 : s.outLen.toNat ≤ s.outCap.toNat)
    (h : s.outCap.toNat < s.outLen.toNat + len) : copy len dist s = .error .outOverflow := by
  induction len generalizing s with
  | zero => omega
  | succ n ih =>
    unfold copy
    by_cases e : s.outLen = s.outCap
    · rw [emit_full _ e]
    · rw [emit_room _ e]
      have hcap := s.outCap.isLt
      have hne : s.outLen.toNat ≠ s.outCap.toNat := fun x => e (BitVec.eq_of_toNat_eq x)
      have hl : (s.outLen + 1).toNat = s.outLen.toNat + 1 := by rw [BitVec.toNat_add]; simp; omega
      exact ih (s := { s.memWrite _ _ with outLen := s.outLen + 1 })
        (by show (s.outLen + 1).toNat ≤ s.outCap.toNat; omega) (by show s.outCap.toNat < (s.outLen + 1).toNat + n; omega)

/-! ## The cursor (R101) -/

theorem State.cursorOnly_refl (s : State) : s.cursorOnly s := rfl

theorem State.cursorOnly_trans {s t u : State} (h : s.cursorOnly t) (k : t.cursorOnly u) : s.cursorOnly u := by
  unfold State.cursorOnly at *; rw [k, h]

theorem refill_cursorOnly {fuel n : Nat} {s t : State} (h : refill fuel n s = some t) : s.cursorOnly t := by
  induction fuel generalizing s with
  | zero =>
    unfold refill at h
    split at h
    · cases h
    · cases h; rfl
  | succ k ih =>
    unfold refill at h
    split at h
    · split at h
      · cases h
      · exact State.cursorOnly_trans (by rfl) (ih h)
    · cases h; rfl

/-- All that ReadBits changes is the cursor. -/
theorem readBits_cursorOnly {n v : Nat} {s t : State} (h : readBits n s = some (v, t)) : s.cursorOnly t := by
  unfold readBits at h
  cases e : refill n n s with
  | none => rw [e] at h; cases h
  | some u =>
    rw [e] at h
    simp only [Option.map_some, Option.some.injEq, takeBits, Prod.mk.injEq] at h
    obtain ⟨-, rfl⟩ := h
    exact State.cursorOnly_trans (refill_cursorOnly e) (by rfl)

theorem readField_cursorOnly {n : Nat} {s t : State} {v : BitVec n}
    (h : readField cursorSource n s = .ok (v, t)) : s.cursorOnly t := by
  unfold readField at h
  cases e : cursorSource.read n s with
  | none => rw [e] at h; cases h
  | some p => rw [e] at h; cases h; exact readBits_cursorOnly e

theorem readExtra_cursorOnly {n v : Nat} {s t : State}
    (h : readExtra cursorSource n s = .ok (v, t)) : s.cursorOnly t := by
  unfold readExtra at h
  split at h
  · cases h; rfl
  · cases e : cursorSource.read n s with
    | none => rw [e] at h; cases h
    | some p => rw [e] at h; cases h; exact readBits_cursorOnly e

theorem readLengths_cursorOnly {n : Nat} {s t : State} {ls : List (BitVec 3)}
    (h : readLengths cursorSource n s = .ok (ls, t)) : s.cursorOnly t := by
  induction n generalizing s ls with
  | zero => cases h; rfl
  | succ n ih =>
    unfold readLengths at h
    cases e : readField cursorSource 3 s with
    | error d => rw [e] at h; cases h
    | ok p =>
      rw [e] at h; simp only at h
      cases e2 : readLengths cursorSource n p.2 with
      | error d => rw [e2] at h; cases h
      | ok q => rw [e2] at h; cases h; exact State.cursorOnly_trans (readField_cursorOnly e) (ih e2)

theorem walk_cursorOnly {T : Table} {draw fuel L code first index : Nat} {s t : State} {v : BitVec 9}
    (h : walk cursorSource T draw fuel L code first index s = .ok (v, t)) : s.cursorOnly t := by
  induction fuel generalizing s L code first index with
  | zero => cases h
  | succ n ih =>
    unfold walk at h
    cases e : cursorSource.read 1 s with
    | none => rw [e] at h; cases h
    | some p =>
      rw [e] at h; simp only at h
      split at h
      · cases h; exact readBits_cursorOnly e
      · exact State.cursorOnly_trans (readBits_cursorOnly e) (ih h)

theorem decodeSym_cursorOnly {T : Table} {draw : Nat} {s t : State} {v : BitVec 9}
    (h : decodeSym cursorSource T draw s = .ok (v, t)) : s.cursorOnly t := walk_cursorOnly h

theorem readHeader_cursorOnly {s t : State} {v : BitVec 1 × BitVec 2} (h : readHeader cursorSource s = .ok (v, t)) :
    s.cursorOnly t := by
  unfold readHeader at h
  split at h
  · cases h
  · rename_i e; split at h
    · cases h
    · rename_i e2; cases h; exact State.cursorOnly_trans (readField_cursorOnly e) (readField_cursorOnly e2)

theorem decodeStoredHeader_cursorOnly {s t : State} {i : Instr} (h : decodeStoredHeader cursorSource s = .ok (i, t)) :
    s.cursorOnly t := by
  unfold decodeStoredHeader at h
  split at h
  · cases h
  · rename_i e; split at h
    · cases h
    · rename_i e2; cases h
      exact State.cursorOnly_trans (s := s) (t := cursorSource.align s) (by rfl)
        (State.cursorOnly_trans (readField_cursorOnly e) (readField_cursorOnly e2))

theorem decodeDynHeader_cursorOnly {s t : State} {i : Instr} (h : decodeDynHeader cursorSource s = .ok (i, t)) :
    s.cursorOnly t := by
  unfold decodeDynHeader at h
  split at h
  · cases h
  · rename_i e; split at h
    · cases h
    · rename_i e2; split at h
      · cases h
      · rename_i e3; cases h
        exact State.cursorOnly_trans (readField_cursorOnly e)
          (State.cursorOnly_trans (readField_cursorOnly e2) (readField_cursorOnly e3))

theorem decodeLitLen_cursorOnly {c : Ctx} {s t : State} {i : Instr} (h : decodeLitLen cursorSource c s = .ok (i, t)) :
    s.cursorOnly t := by
  unfold decodeLitLen at h
  split at h
  · cases h
  · rename_i e; split at h
    · cases h
    · rename_i e2; cases h; exact State.cursorOnly_trans (decodeSym_cursorOnly e) (readExtra_cursorOnly e2)

theorem decodeDistance_cursorOnly {c : Ctx} {s t : State} {i : Instr} (h : decodeDistance cursorSource c s = .ok (i, t)) :
    s.cursorOnly t := by
  unfold decodeDistance at h
  split at h
  · cases h
  · rename_i e; split at h
    · cases h
    · rename_i e2; cases h; exact State.cursorOnly_trans (decodeSym_cursorOnly e) (readExtra_cursorOnly e2)

theorem decodeClSymbol_cursorOnly {c : Ctx} {s t : State} {i : Instr} (h : decodeClSymbol cursorSource c s = .ok (i, t)) :
    s.cursorOnly t := by
  unfold decodeClSymbol at h
  split at h
  · cases h
  · rename_i e
    have k := decodeSym_cursorOnly e
    split at h
    · cases h; exact k
    · split at h
      · split at h
        · split at h
          · cases h
          · rename_i e2; cases h; exact State.cursorOnly_trans k (readField_cursorOnly e2)
        · cases h; exact k
      · split at h
        · split at h
          · cases h
          · rename_i e2; cases h; exact State.cursorOnly_trans k (readField_cursorOnly e2)
        · split at h
          · split at h
            · cases h
            · rename_i e2; cases h; exact State.cursorOnly_trans k (readField_cursorOnly e2)
          · cases h

theorem map_cursorOnly {α : Type} {r : Except DecodeError (α × State)} {f : α × State → Instr} {s t : State} {i : Instr}
    (hr : ∀ a u, r = .ok (a, u) → s.cursorOnly u) (h : (r.map fun p => (f p, p.2)) = .ok (i, t)) : s.cursorOnly t := by
  cases r with
  | error e => cases h
  | ok p => cases h; exact hr p.1 p.2 rfl

/-- Fetching an instruction changes only the cursor. -/
theorem decode_cursorOnly {elem : Elem} {c : Ctx} {s t : State} {i : Instr}
    (h : decode cursorSource elem c s = .ok (i, t)) : s.cursorOnly t := by
  cases elem with
  | blockHeader => exact map_cursorOnly (fun _ _ => readHeader_cursorOnly) h
  | blockType => exact map_cursorOnly (fun _ _ => readHeader_cursorOnly) h
  | storedHeader => exact decodeStoredHeader_cursorOnly h
  | storedByte => exact map_cursorOnly (fun _ _ => readField_cursorOnly) h
  | dynHeader => exact decodeDynHeader_cursorOnly h
  | dynClLengths => exact map_cursorOnly (fun _ _ => readLengths_cursorOnly) h
  | clSymbol => exact decodeClSymbol_cursorOnly h
  | litLen => exact decodeLitLen_cursorOnly h
  | distance => exact decodeDistance_cursorOnly h
  | defilterRow => exact map_cursorOnly (fun _ _ => readField_cursorOnly) h
  | command => exact map_cursorOnly (fun _ _ => readField_cursorOnly) h
  | filterRow => exact map_cursorOnly (fun _ _ => readField_cursorOnly) h

end Sys2Proof.Machine
end

