-- ==== Sys2Proof/Laws/Cursor.lean ====
section
/-! SUPPORT. What ReadBits can do, for every cursor (R101): it reads the front of `cursorBits`, whatever the cursor was left as. -/

namespace Sys2Proof.Machine

/-- The number of bits the cursor can still read. -/
@[simp] theorem State.cursorBits_length (s : State) :
    s.cursorBits.length = s.bitCnt.toNat + 8 * (s.inLen.toNat - s.inPos.toNat) := by simp [State.cursorBits]

theorem bitsValue_range (n : Nat) (f : Nat → Bool) (v : Nat) (h : ∀ b, b < n → f b = v.testBit b) :
    bitsValue ((List.range n).map f) = v % 2 ^ n := by
  induction n generalizing f v with
  | zero => simp [bitsValue, Nat.mod_one]
  | succ n ih =>
    have step := ih (fun b => f (b + 1)) (v / 2) (fun b hb => by rw [h (b + 1) (by omega), Nat.testBit_succ])
    have low : (f 0).toNat = v % 2 := by
      rw [h 0 (by omega), Nat.testBit_zero]
      rcases Nat.mod_two_eq_zero_or_one v with e | e <;> simp [e]
    simp only [List.range_succ_eq_map, List.map_cons, List.map_map, bitsValue, low]
    rw [show (f ∘ Nat.succ) = fun b => f (b + 1) from rfl, step, Nat.pow_succ', Nat.mod_mul]

/-- One byte fetched (R101). -/
def fetchByte (s : State) : State :=
  { s with
    bitBuf := s.bitBuf ||| ((s.memRead (windowAddr s.inBase s.inPos.toNat)).setWidth 64 <<< s.bitCnt.toNat)
    inPos := s.inPos + 1
    bitCnt := s.bitCnt + 8 }

/-- Fetching a byte moves bits into BIT_BUF and changes none of those still to come. -/
theorem fetchByte_cursorBits {s : State} (hc : s.bitCnt.toNat < 32) (hp : s.inPos.toNat < s.inLen.toNat) :
    (fetchByte s).cursorBits = s.cursorBits ∧ (fetchByte s).bitCnt.toNat = s.bitCnt.toNat + 8 ∧
      (fetchByte s).inPos.toNat = s.inPos.toNat + 1 := by
  have hl := s.inLen.isLt
  have c : (s.bitCnt + 8).toNat = s.bitCnt.toNat + 8 := by
    rw [BitVec.toNat_add, show (8 : BitVec 6).toNat = 8 from rfl]; omega
  have p : (s.inPos + 1).toNat = s.inPos.toNat + 1 := by
    rw [BitVec.toNat_add, show (1 : Word).toNat = 1 from rfl]; omega
  refine ⟨?_, c, p⟩
  have n : s.bitCnt.toNat + 8 + 8 * (s.inLen.toNat - (s.inPos.toNat + 1)) =
      s.bitCnt.toNat + 8 * (s.inLen.toNat - s.inPos.toNat) := by omega
  simp only [State.cursorBits, fetchByte, c, p, n]
  refine List.map_congr_left fun b _ => ?_
  simp only [State.cursorBit, State.memRead, c, p, BitVec.getLsbD_or, BitVec.getLsbD_shiftLeft, BitVec.getLsbD_setWidth]
  by_cases h1 : b < s.bitCnt.toNat
  · simp [h1, show ¬ s.bitCnt.toNat ≤ b by omega, show ¬ s.bitCnt.toNat + 8 ≤ b by omega]
  · by_cases h2 : b < s.bitCnt.toNat + 8
    · have e : (b - s.bitCnt.toNat) / 8 = 0 := by omega
      have e2 : (b - s.bitCnt.toNat) % 8 = b - s.bitCnt.toNat := by omega
      simp [h1, show s.bitCnt.toNat ≤ b by omega, show ¬ s.bitCnt.toNat + 8 ≤ b by omega, show b < 64 by omega,
        show b - s.bitCnt.toNat < 64 by omega, e, e2]
    · have e : s.inPos.toNat + 1 + (b - (s.bitCnt.toNat + 8)) / 8 = s.inPos.toNat + (b - s.bitCnt.toNat) / 8 := by omega
      have e2 : (b - (s.bitCnt.toNat + 8)) % 8 = (b - s.bitCnt.toNat) % 8 := by omega
      have z : (Memory.read s.mem (windowAddr s.inBase s.inPos.toNat)).getLsbD (b - s.bitCnt.toNat) = false :=
        BitVec.getLsbD_of_ge _ _ (by omega)
      simp [h1, show s.bitCnt.toNat ≤ b by omega, show s.bitCnt.toNat + 8 ≤ b by omega, e, e2, z]

/-- The refill loop: the bits still to come are the same, and the first `n` are buffered; none when there are fewer. -/
theorem refill_cursorBits {n : Nat} (hn : n ≤ 32) (fuel : Nat) (s : State) (hf : n ≤ s.bitCnt.toNat + 8 * fuel) :
    (n ≤ s.cursorBits.length →
      ∃ t, refill fuel n s = some t ∧ t.cursorBits = s.cursorBits ∧ n ≤ t.bitCnt.toNat ∧ s.cursorOnly t ∧
        8 * s.inPos.toNat + t.bitCnt.toNat = 8 * t.inPos.toNat + s.bitCnt.toNat) ∧
      (s.cursorBits.length < n → refill fuel n s = none) := by
  induction fuel generalizing s with
  | zero =>
    have h : ¬ s.bitCnt.toNat < n := by omega
    rw [refill, if_neg h]
    exact ⟨fun _ => ⟨s, rfl, rfl, by omega, s.cursorOnly_refl, by omega⟩,
      fun hl => absurd hl (by rw [State.cursorBits_length]; omega)⟩
  | succ fuel ih =>
    rw [refill]
    by_cases h : s.bitCnt.toNat < n
    · rw [if_pos h]
      by_cases hp : s.inLen.toNat ≤ s.inPos.toNat
      · rw [if_pos hp]
        exact ⟨fun hl => absurd hl (by rw [State.cursorBits_length]; omega), fun _ => rfl⟩
      · rw [if_neg hp]
        obtain ⟨bits, cnt, pos⟩ := fetchByte_cursorBits (s := s) (by omega) (by omega)
        obtain ⟨enough, few⟩ := ih (fetchByte s) (by omega)
        refine ⟨fun hl => ?_, fun hl => few (bits ▸ hl)⟩
        obtain ⟨t, ht, e, en, eo, ep⟩ := enough (bits ▸ hl)
        exact ⟨t, ht, e.trans bits, en, State.cursorOnly_trans rfl eo, by omega⟩
    · rw [if_neg h]
      exact ⟨fun _ => ⟨s, rfl, rfl, by omega, s.cursorOnly_refl, by omega⟩,
        fun hl => absurd hl (by rw [State.cursorBits_length]; omega)⟩

/-- Taking `n` buffered bits takes the first `n` of the bits still to come. -/
theorem takeBits_cursorBits {n : Nat} {s : State} (h : n ≤ s.bitCnt.toNat) :
    (takeBits n s).1 = bitsValue (s.cursorBits.take n) ∧ (takeBits n s).2.cursorBits = s.cursorBits.drop n ∧
      (takeBits n s).2.bitCnt.toNat + n = s.bitCnt.toNat := by
  have c : (s.bitCnt - BitVec.ofNat 6 n).toNat = s.bitCnt.toNat - n := by
    have := s.bitCnt.isLt
    rw [BitVec.toNat_sub, BitVec.toNat_ofNat]; omega
  refine ⟨?_, ?_, by simp only [takeBits, c]; omega⟩
  · rw [State.cursorBits, ← List.map_take, List.take_range, Nat.min_eq_left (by omega)]
    refine (bitsValue_range n _ _ fun b hb => ?_).symm
    simp [State.cursorBit, show ¬ s.bitCnt.toNat ≤ b by omega, BitVec.testBit_toNat]
  · apply List.ext_getElem
    · simp only [State.cursorBits_length, List.length_drop, takeBits, c]; omega
    · intro b h1 h2
      have e : b - (s.bitCnt.toNat - n) = n + b - s.bitCnt.toNat := by omega
      have e2 : (s.bitCnt.toNat - n ≤ b) = (s.bitCnt.toNat ≤ n + b) := by apply propext; omega
      simp [State.cursorBits, State.cursorBit, State.memRead, takeBits, c, e, e2, BitVec.getLsbD_ushiftRight]

/-- ReadBits for every cursor (R101): it reads the first `n` bits still to come, and fails exactly when there are fewer. -/
theorem readBits_cursorBits {n : Nat} (hn : n ≤ 32) (s : State) :
    (n ≤ s.cursorBits.length →
      ∃ t, readBits n s = some (bitsValue (s.cursorBits.take n), t) ∧ t.cursorBits = s.cursorBits.drop n ∧ s.cursorOnly t ∧
        8 * s.inPos.toNat + t.bitCnt.toNat + n = 8 * t.inPos.toNat + s.bitCnt.toNat) ∧
      (s.cursorBits.length < n → readBits n s = none) := by
  obtain ⟨enough, few⟩ := refill_cursorBits hn n s (by omega)
  refine ⟨fun h => ?_, fun h => by simp [readBits, few h]⟩
  obtain ⟨t, ht, e, en, eo, ep⟩ := enough h
  obtain ⟨v, d, c⟩ := takeBits_cursorBits en
  refine ⟨(takeBits n t).2, ?_, e ▸ d, State.cursorOnly_trans eo rfl, ?_⟩
  · rw [readBits, ht, Option.map_some, ← e, ← v]
  · simp only [takeBits] at c ⊢; omega

/-- A Huffman walk for every cursor (R114): it goes as over the bits still to come. -/
theorem walk_cursorBits (T : Table) (draw fuel L code first index pos : Nat) (s : State) :
    match walk bitListSource T draw fuel L code first index { pos := pos, bits := s.cursorBits } with
    | .ok (v, y) =>
      ∃ t, walk cursorSource T draw fuel L code first index s = .ok (v, t) ∧ t.cursorBits = y.bits ∧ s.cursorOnly t
    | .error e => walk cursorSource T draw fuel L code first index s = .error e := by
  induction fuel generalizing L code first index pos s with
  | zero => simp [walk]
  | succ fuel ih =>
    obtain ⟨enough, few⟩ := readBits_cursorBits (n := 1) (by omega) s
    by_cases h : 1 ≤ s.cursorBits.length
    · obtain ⟨t, ht, e, eo, -⟩ := enough h
      have hb : BitList.read 1 { pos := pos, bits := s.cursorBits } =
          some (bitsValue (s.cursorBits.take 1), { pos := pos + 1, bits := t.cursorBits }) := by
        rw [BitList.read, if_neg (Nat.not_lt.mpr h), e]
      have next := ih (L + 1) (2 * (code + bitsValue (s.cursorBits.take 1))) (2 * (first + T.count L)) (index + T.count L) (pos + 1) t
      simp only [walk, bitListSource, cursorSource, hb, ht] at next ⊢
      by_cases hc : code + bitsValue (s.cursorBits.take 1) < first + T.count L
      · simp only [if_pos hc]
        exact ⟨t, rfl, rfl, eo⟩
      · simp only [if_neg hc]
        revert next
        generalize walk { read := BitList.read, align := BitList.align } T draw fuel _ _ _ _ _ = w
        cases w with
        | error _ => exact id
        | ok vy => exact fun ⟨u, hu, f, fo⟩ => ⟨u, hu, f, State.cursorOnly_trans eo fo⟩
    · have hb : BitList.read 1 { pos := pos, bits := s.cursorBits } = none := by
        rw [BitList.read, if_pos (Nat.not_le.mp h)]
      simp only [walk, bitListSource, cursorSource, hb, few (Nat.not_le.mp h)]

end Sys2Proof.Machine
end

