-- ==== Sys2Proof/Laws/Exec.lean ====
section
/-! SUPPORT. What raising, the tables and every meaning can do: that each answers a next state, and what none writes. -/

namespace Sys2Proof.Machine

/-! ## Raising (R300) -/

@[simp] theorem raise_state (op : Op) (d : ErrDetail) (p : ErrPos) (s : State) : (raise op d p s).state = .error := rfl
@[simp] theorem raise_errDetail (op : Op) (d : ErrDetail) (p : ErrPos) (s : State) : (raise op d p s).errDetail = d.code := rfl
@[simp] theorem raise_errClass (op : Op) (d : ErrDetail) (p : ErrPos) (s : State) : (raise op d p s).errClass = d.errClass := rfl
@[simp] theorem raise_errByte (op : Op) (d : ErrDetail) (p : ErrPos) (s : State) : (raise op d p s).errByte = p.1 := rfl
@[simp] theorem raise_errBit (op : Op) (d : ErrDetail) (p : ErrPos) (s : State) : (raise op d p s).errBit = p.2 := rfl
@[simp] theorem raise_st (op : Op) (d : ErrDetail) (p : ErrPos) (s : State) : (raise op d p s).st = .idle := rfl
@[simp] theorem raise_pending (op : Op) (d : ErrDetail) (p : ErrPos) (s : State) : (raise op d p s).pending = .none := rfl

theorem detailClass_code (d : ErrDetail) : detailClass d.code = d.errClass := by cases d <;> rfl

/-- An error leaves STATUS legal, whatever it was before. -/
theorem raise_statusOk (op : Op) (d : ErrDetail) (p : ErrPos) (s : State) : (raise op d p s).statusOk := by
  refine ⟨?_, ?_, ?_, ?_, ?_, rfl, ?_, ?_⟩
  · simp only [raise_state, raise_errDetail, true_iff]; cases d <;> decide
  · rw [raise_errDetail]; cases d <;> decide
  · rw [raise_errClass, raise_errDetail, detailClass_code]
  all_goals simp

/-! ## Tables (R40, R110) -/

theorem countLengths_length (ls : List Nat) (c : List (BitVec 16)) : (countLengths ls c).length = c.length := by
  induction ls generalizing c with
  | nil => rfl
  | cons l ls ih => unfold countLengths; rw [ih]; split <;> simp

theorem countLengths_zero (ls : List Nat) (c : List (BitVec 16)) : (countLengths ls c).getD 0 0 = c.getD 0 0 := by
  induction ls generalizing c with
  | nil => rfl
  | cons l ls ih =>
    unfold countLengths
    rw [ih]
    split
    · rfl
    · rename_i h; simp [h]

theorem placeSymbols_length (ls : List Nat) (sym : Nat) (offs : List Nat) (symbols : List (BitVec 9)) :
    (placeSymbols ls sym offs symbols).length = symbols.length := by
  induction ls generalizing sym offs symbols with
  | nil => rfl
  | cons l ls ih => unfold placeSymbols; split <;> rw [ih]; simp

/-- A built table has its shape. -/
theorem build_shaped (unset : Nat → BitVec 9) (cap : Nat) (lens : List Nat) : tableShaped cap (build unset cap lens) := by
  refine ⟨?_, ?_, ?_⟩
  · unfold build; simp [countLengths_length]
  · unfold build; simp only; rw [countLengths_zero]; rfl
  · unfold build; simp only; rw [placeSymbols_length]; simp

/-- A drawn table has its shape. -/
theorem drawTable_shaped (a b c : FreeName) (cap tick : Nat) : tableShaped cap (drawTable a b c cap tick) := by
  refine ⟨?_, rfl, ?_⟩ <;> simp [drawTable]

theorem fillLens_length (v : BitVec 4) (r i : Nat) (lens : List (BitVec 4)) : (fillLens v r i lens).length = lens.length := by
  induction r generalizing i lens with
  | zero => rfl
  | succ r ih => unfold fillLens; rw [ih]; simp

theorem fillLens_getD (v : BitVec 4) (r i k : Nat) (lens : List (BitVec 4)) (hk : k < lens.length) :
    (fillLens v r i lens).getD k 0 = if i ≤ k ∧ k < i + r then v else lens.getD k 0 := by
  induction r generalizing i lens with
  | zero => rw [if_neg (by omega)]; rfl
  | succ r ih =>
    unfold fillLens
    rw [ih _ _ (by simpa using hk)]
    by_cases h : i + 1 ≤ k ∧ k < i + 1 + r
    · rw [if_pos h, if_pos (by omega)]
    · rw [if_neg h]
      by_cases e : i = k
      · subst e; rw [if_pos (by omega)]; simp [hk]
      · rw [if_neg (by omega)]; simp [e]

/-! ## The end of a block, of the code lengths and of a row -/

theorem endOfBlock_final {s : State} (h : s.bfinal = 1) : endOfBlock s = complete { s with st := .idle } := if_pos h

theorem endOfBlock_more {s : State} (h : s.bfinal ≠ 1) : endOfBlock s = { s with st := .hdr } := if_neg h

theorem lengthsDone_more {s : State} (h : s.lensIdx.toNat ≠ s.lensTotal) : lengthsDone s = s := if_neg h

/-- The registers of `s` that the end of the code lengths may change. -/
theorem lengthsDone_only (s : State) :
    lengthsDone s = { s with lit := (lengthsDone s).lit, dist := (lengthsDone s).dist, st := (lengthsDone s).st } := by
  unfold lengthsDone; split <;> rfl

theorem rowDone_rowCounted (n : Nat) (m : List Host.Cell) (s : State) : rowCounted n s (rowDone n m s) := by
  unfold rowCounted rowDone
  split <;> rfl

/-! ## Every meaning -/

/-- Every meaning answers a next state: no instruction faults or is refused. -/
theorem exec_total (i : Instr) (s : State) : ∃ t, exec i s = .next t := by
  have dist : ∀ d e, ∃ t, distancePart d e s = .next t := by
    intro d e
    unfold distancePart
    split
    · exact ⟨_, rfl⟩
    · exact orRaise_next _ _
  cases i
  all_goals first
    | exact dist _ _
    | exact ⟨_, rfl⟩
    | exact orRaise_next _ _
    | skip
  all_goals
    simp only [exec, execStoredHeader, execDynHeader, execBlkStored, execClRepeatPrev, execClRepeatZero3, execClRepeatZero11,
      runLengths, execInflate, execDefilter, execFilter, execCrcUpdate, execCrcCheck, execHuffBuild, execHuffDecode, execBitsRead]
  all_goals
    repeat' split
  all_goals first
    | exact ⟨_, rfl⟩

/-- What no instruction writes: CFG, the operand registers, the sequencer and the model's own bookkeeping. -/
def State.fixedPart (s : State) : (BitVec 2 × Word × Word × Word × Word × Word × Word × BitVec 9) ×
    (Word × Phase × List Move × Word × Nat × Nat) :=
  ((s.cfg, s.inBase, s.inLen, s.outBase, s.outCap, s.width, s.height, s.huffN),
    (s.cmdl, s.phase, s.moves, s.hostRead, s.tick, s.eltStart))

theorem drawTbl_fixedPart (b : BitVec 2) (s : State) : (drawTbl b s).fixedPart = s.fixedPart := by
  unfold drawTbl; split <;> rfl

theorem raise_fixedPart (op : Op) (d : ErrDetail) (pos : ErrPos) (s : State) :
    (raise op d pos s).fixedPart = s.fixedPart := by
  have h : (raise op d pos s).fixedPart = (drawAfterError op s).fixedPart := by unfold raise State.fixedPart; rfl
  rw [h]
  cases op <;> simp only [drawAfterError, drawTbl_fixedPart] <;> simp [State.fixedPart]

theorem cursorOnly_fixedPart {s t : State} (h : s.cursorOnly t) : t.fixedPart = s.fixedPart := by
  unfold State.cursorOnly at h; rw [h]; rfl

theorem setTable_fixedPart (s : State) (b : BitVec 2) (T : Table) : (s.setTable b T).fixedPart = s.fixedPart := by
  unfold State.setTable; split <;> rfl

theorem endOfBlock_fixedPart (s : State) : (endOfBlock s).fixedPart = s.fixedPart := by
  unfold endOfBlock; split <;> rfl

theorem lengthsDone_fixedPart (s : State) : (lengthsDone s).fixedPart = s.fixedPart := by
  unfold lengthsDone; split <;> rfl

theorem storedByteDone_fixedPart (s : State) : (storedByteDone s).fixedPart = s.fixedPart := by
  unfold storedByteDone; split
  · rw [endOfBlock_fixedPart]; rfl
  · rfl

theorem rowDone_fixedPart (n : Nat) (m : List Host.Cell) (s : State) : (rowDone n m s).fixedPart = s.fixedPart := by
  unfold rowDone; split <;> rfl

theorem rowsStart_fixedPart (s : State) : (rowsStart s).fixedPart = s.fixedPart := by
  unfold rowsStart; split <;> rfl

theorem emit_fixedPart {v : Byte} {s t : State} (h : emit v s = .ok t) : t.fixedPart = s.fixedPart := by
  unfold emit at h; split at h
  · cases h
  · cases h; rfl

theorem copy_fixedPart {len dist : Nat} {s t : State} (h : copy len dist s = .ok t) : t.fixedPart = s.fixedPart := by
  rcases copy_cases len dist s with e | ⟨u, e, f, -⟩
  · rw [e] at h; cases h
  · rw [e] at h; injection h with h; subst h; exact (congrArg State.fixedPart f).trans rfl

theorem orRaise_fixedPart {s t : State} {r : Except ErrDetail State} (h : orRaise s r = .next t)
    (hr : ∀ u, r = .ok u → u.fixedPart = s.fixedPart) : t.fixedPart = s.fixedPart := by
  cases r with
  | ok u => injection h with h; subst h; exact hr u rfl
  | error d => cases h; exact raise_fixedPart _ _ _ _

/-- No instruction writes CFG, an operand register, HIF.CMDL or HIF.PHASE. -/
theorem exec_fixedPart {i : Instr} {s t : State} (h : exec i s = .next t) : t.fixedPart = s.fixedPart := by
  have dist : ∀ d e, distancePart d e s = .next t → t.fixedPart = s.fixedPart := by
    intro d e h
    unfold distancePart at h
    split at h
    · cases h; exact raise_fixedPart _ _ _ _
    · refine orRaise_fixedPart h fun u hu => ?_
      cases e2 : copy s.matchLen (dbase d + e) s with
      | error _ => rw [e2] at hu; cases hu
      | ok w => rw [e2] at hu; cases hu; exact (copy_fixedPart e2 : w.fixedPart = s.fixedPart)
  have run : ∀ v r, runLengths v r s = .next t → t.fixedPart = s.fixedPart := by
    intro v r h
    unfold runLengths at h
    split at h
    · cases h; exact raise_fixedPart _ _ _ _
    · cases h; rw [lengthsDone_fixedPart]; rfl
  cases i
  all_goals first
    | exact dist _ _ h
    | exact run _ _ h
    | (cases h; exact raise_fixedPart _ _ _ _)
    | (cases h; rfl)
    | (cases h; exact rowDone_fixedPart _ _ _)
    | (cases h; exact lengthsDone_fixedPart _)
    | (cases h; exact endOfBlock_fixedPart _)
    | skip
  case storedByte b =>
    refine orRaise_fixedPart h fun u hu => ?_
    cases e2 : emit b s with
    | error _ => rw [e2] at hu; cases hu
    | ok w => rw [e2] at hu; cases hu; rw [storedByteDone_fixedPart]; exact emit_fixedPart e2
  case lit b =>
    refine orRaise_fixedPart h fun u hu => ?_
    cases e2 : emit b s with
    | error _ => rw [e2] at hu; cases hu
    | ok w => rw [e2] at hu; cases hu; exact (emit_fixedPart e2 : w.fixedPart = s.fixedPart)
  all_goals
    simp only [exec, execStoredHeader, execDynHeader, execBlkStored, execClRepeatPrev, execInflate, execDefilter, execFilter,
      execCrcUpdate, execCrcCheck, execHuffBuild, execHuffDecode, execBitsRead] at h
  all_goals
    repeat' split at h
  all_goals first
    | exact run _ _ h
    | (cases h; exact raise_fixedPart _ _ _ _)
    | (cases h; rfl)
    | (cases h; exact endOfBlock_fixedPart _)
    | (cases h; exact rowsStart_fixedPart _)
    | (cases h; exact setTable_fixedPart _ _ _)
    | skip
  · rename_i e; have k := cursorOnly_fixedPart (decodeSym_cursorOnly e); cases h; exact k
  · rename_i e; have k := cursorOnly_fixedPart (readBits_cursorOnly e); cases h; exact k
end Sys2Proof.Machine
end

