-- ==== Sys2Proof/Tests/Slice0.lean ====
section
/-! SUPPORT. The model's own tests. Words, bytes and expected values are the spec's: its encodings, its examples and its vectors
(95_test_vectors.md); the witnesses show states that meet the hypotheses of the statements. -/

namespace Sys2Proof.Machine

set_option Elab.async false

/-! ## Well-formedness: an ill-formed term for each check -/

theorem test_wf_three_code_lengths : (Instr.dynClLengths [1, 2, 3]).wf = false := by decide
theorem test_wf_twenty_code_lengths : (Instr.dynClLengths (List.replicate 20 1)).wf = false := by decide
theorem test_wf_ftReserved_4 : (Instr.ftReserved 4).wf = false := by decide
theorem test_wf_filter_5 : (Instr.filter 5).wf = false := by decide
theorem test_wf_bounds :
    (Instr.dynClLengths [1, 2, 3, 4]).wf = true ∧ (Instr.dynClLengths (List.replicate 19 1)).wf = true ∧
      (Instr.ftReserved 5).wf = true ∧ (Instr.filter 4).wf = true := by decide

/-! ## Decoding: words written out from the spec's encodings, every constructor -/

/-- The bits decode to `i` with nothing left. -/
def decodesTo (elem : Elem) (c : Ctx) (bits : List Bool) (i : Instr) : Bool :=
  match decode bitListSource elem c { pos := 0, bits := bits } with
  | .ok (j, y) => decide (j = i) && y.bits.isEmpty
  | .error _ => false

/-- The tables of a fixed block (R97, R122). -/
def fixedCtx : Ctx := { tableCtx with dist := fixedDist }

/-- P3's CLEN table (R147): symbols 0 to 4 and 16 to 18 with the codes 000 to 111. -/
def p3Clen : Table := build (fun _ => 0) 19 [3, 3, 3, 3, 3, 0, 0, 0, 0, 0, 0, 0, 0, 0, 0, 0, 3, 3, 3]

theorem test_decode_block_elements :
    (decodesTo .blockHeader fixedCtx [true, true, false] (.blockHeader 1 1) &&
      decodesTo .blockType fixedCtx [true, false, false] (.blkStored 1) &&
      decodesTo .blockType fixedCtx [true, true, false] (.blkFixed 1) &&
      decodesTo .blockType fixedCtx [true, false, true] (.blkDynamic 1) &&
      decodesTo .blockType fixedCtx [false, true, true] (.blkReserved 0) &&
      decodesTo .storedHeader fixedCtx (fieldBits 8 0x02 ++ fieldBits 8 0x00 ++ fieldBits 8 0xFD ++ fieldBits 8 0xFF)
        (.storedHeader 2 0xFFFD) &&
      decodesTo .storedByte fixedCtx (fieldBits 8 0x48) (.storedByte 0x48) &&
      decodesTo .dynHeader fixedCtx (fieldBits 5 3 ++ fieldBits 5 3 ++ fieldBits 4 14) (.dynHeader 3 3 14) &&
      decodesTo .dynClLengths fixedCtx (fieldBits 3 3 ++ fieldBits 3 0 ++ fieldBits 3 7 ++ fieldBits 3 1)
        (.dynClLengths [3, 0, 7, 1])) = true := by decide

theorem test_decode_code_length_symbols :
    (decodesTo .clSymbol { tableCtx with clen := p3Clen } [false, false, true] (.clLen 1) &&
      decodesTo .clSymbol { tableCtx with clen := p3Clen } ([true, false, true] ++ [true, false]) (.clRepeatPrev 1) &&
      decodesTo .clSymbol { tableCtx with clen := p3Clen } ([true, true, false] ++ [true, true, true]) (.clRepeatZero3 7) &&
      decodesTo .clSymbol { tableCtx with clen := p3Clen } ([true, true, true] ++ fieldBits 7 95) (.clRepeatZero11 95)) =
      true := by decide

theorem test_decode_literals_and_reserved :
    (decodesTo .litLen fixedCtx (codeBits 8 0b01110001) (.lit 0x41) && decodesTo .litLen fixedCtx (codeBits 8 0b00110000) (.lit 0) &&
      decodesTo .litLen fixedCtx (codeBits 8 0b10111111) (.lit 143) &&
      decodesTo .litLen fixedCtx (codeBits 9 0b110010000) (.lit 144) &&
      decodesTo .litLen fixedCtx (codeBits 9 0b111111111) (.lit 255) && decodesTo .litLen fixedCtx (codeBits 7 0) .eob &&
      decodesTo .litLen fixedCtx (codeBits 8 0b11000110) .llReserved286 &&
      decodesTo .litLen fixedCtx (codeBits 8 0b11000111) .llReserved287 &&
      decodesTo .distance { tableCtx with dist := flatTable 32 } (codeBits 5 30) .distReserved30 &&
      decodesTo .distance { tableCtx with dist := flatTable 32 } (codeBits 5 31) .distReserved31) = true := by decide

theorem test_decode_lengths_257 :
    (decodesTo .litLen fixedCtx (codeBits 7 0b0000001) .len257 &&
      decodesTo .litLen fixedCtx (codeBits 7 0b0000010) .len258 &&
      decodesTo .litLen fixedCtx (codeBits 7 0b0000011) .len259 &&
      decodesTo .litLen fixedCtx (codeBits 7 0b0000100) .len260 &&
      decodesTo .litLen fixedCtx (codeBits 7 0b0000101) .len261 &&
      decodesTo .litLen fixedCtx (codeBits 7 0b0000110) .len262 &&
      decodesTo .litLen fixedCtx (codeBits 7 0b0000111) .len263 &&
      decodesTo .litLen fixedCtx (codeBits 7 0b0001000) .len264 &&
      decodesTo .litLen fixedCtx (codeBits 7 0b0001001 ++ fieldBits 1 1) (.len265 1) &&
      decodesTo .litLen fixedCtx (codeBits 7 0b0001010 ++ fieldBits 1 1) (.len266 1)) = true := by decide

theorem test_decode_lengths_267 :
    (decodesTo .litLen fixedCtx (codeBits 7 0b0001011 ++ fieldBits 1 1) (.len267 1) &&
      decodesTo .litLen fixedCtx (codeBits 7 0b0001100 ++ fieldBits 1 1) (.len268 1) &&
      decodesTo .litLen fixedCtx (codeBits 7 0b0001101 ++ fieldBits 2 3) (.len269 3) &&
      decodesTo .litLen fixedCtx (codeBits 7 0b0001110 ++ fieldBits 2 3) (.len270 3) &&
      decodesTo .litLen fixedCtx (codeBits 7 0b0001111 ++ fieldBits 2 3) (.len271 3) &&
      decodesTo .litLen fixedCtx (codeBits 7 0b0010000 ++ fieldBits 2 3) (.len272 3) &&
      decodesTo .litLen fixedCtx (codeBits 7 0b0010001 ++ fieldBits 3 7) (.len273 7) &&
      decodesTo .litLen fixedCtx (codeBits 7 0b0010010 ++ fieldBits 3 7) (.len274 7) &&
      decodesTo .litLen fixedCtx (codeBits 7 0b0010011 ++ fieldBits 3 7) (.len275 7) &&
      decodesTo .litLen fixedCtx (codeBits 7 0b0010100 ++ fieldBits 3 7) (.len276 7)) = true := by decide

theorem test_decode_lengths_277 :
    (decodesTo .litLen fixedCtx (codeBits 7 0b0010101 ++ fieldBits 4 15) (.len277 15) &&
      decodesTo .litLen fixedCtx (codeBits 7 0b0010110 ++ fieldBits 4 15) (.len278 15) &&
      decodesTo .litLen fixedCtx (codeBits 7 0b0010111 ++ fieldBits 4 15) (.len279 15) &&
      decodesTo .litLen fixedCtx (codeBits 8 0b11000000 ++ fieldBits 4 15) (.len280 15) &&
      decodesTo .litLen fixedCtx (codeBits 8 0b11000001 ++ fieldBits 5 31) (.len281 31) &&
      decodesTo .litLen fixedCtx (codeBits 8 0b11000010 ++ fieldBits 5 31) (.len282 31) &&
      decodesTo .litLen fixedCtx (codeBits 8 0b11000011 ++ fieldBits 5 31) (.len283 31) &&
      decodesTo .litLen fixedCtx (codeBits 8 0b11000100 ++ fieldBits 5 31) (.len284 31) &&
      decodesTo .litLen fixedCtx (codeBits 8 0b11000101) .len285) = true := by decide

theorem test_decode_distances_0 :
    (decodesTo .distance fixedCtx (codeBits 5 0b00000) .dist0 &&
      decodesTo .distance fixedCtx (codeBits 5 0b00001) .dist1 &&
      decodesTo .distance fixedCtx (codeBits 5 0b00010) .dist2 &&
      decodesTo .distance fixedCtx (codeBits 5 0b00011) .dist3 &&
      decodesTo .distance fixedCtx (codeBits 5 0b00100 ++ fieldBits 1 1) (.dist4 1) &&
      decodesTo .distance fixedCtx (codeBits 5 0b00101 ++ fieldBits 1 1) (.dist5 1) &&
      decodesTo .distance fixedCtx (codeBits 5 0b00110 ++ fieldBits 2 3) (.dist6 3) &&
      decodesTo .distance fixedCtx (codeBits 5 0b00111 ++ fieldBits 2 3) (.dist7 3) &&
      decodesTo .distance fixedCtx (codeBits 5 0b01000 ++ fieldBits 3 6) (.dist8 6) &&
      decodesTo .distance fixedCtx (codeBits 5 0b01001 ++ fieldBits 3 6) (.dist9 6)) = true := by decide

theorem test_decode_distances_10 :
    (decodesTo .distance fixedCtx (codeBits 5 0b01010 ++ fieldBits 4 14) (.dist10 14) &&
      decodesTo .distance fixedCtx (codeBits 5 0b01011 ++ fieldBits 4 14) (.dist11 14) &&
      decodesTo .distance fixedCtx (codeBits 5 0b01100 ++ fieldBits 5 30) (.dist12 30) &&
      decodesTo .distance fixedCtx (codeBits 5 0b01101 ++ fieldBits 5 30) (.dist13 30) &&
      decodesTo .distance fixedCtx (codeBits 5 0b01110 ++ fieldBits 6 62) (.dist14 62) &&
      decodesTo .distance fixedCtx (codeBits 5 0b01111 ++ fieldBits 6 62) (.dist15 62) &&
      decodesTo .distance fixedCtx (codeBits 5 0b10000 ++ fieldBits 7 126) (.dist16 126) &&
      decodesTo .distance fixedCtx (codeBits 5 0b10001 ++ fieldBits 7 126) (.dist17 126) &&
      decodesTo .distance fixedCtx (codeBits 5 0b10010 ++ fieldBits 8 254) (.dist18 254) &&
      decodesTo .distance fixedCtx (codeBits 5 0b10011 ++ fieldBits 8 254) (.dist19 254)) = true := by decide

theorem test_decode_distances_20 :
    (decodesTo .distance fixedCtx (codeBits 5 0b10100 ++ fieldBits 9 510) (.dist20 510) &&
      decodesTo .distance fixedCtx (codeBits 5 0b10101 ++ fieldBits 9 510) (.dist21 510) &&
      decodesTo .distance fixedCtx (codeBits 5 0b10110 ++ fieldBits 10 1022) (.dist22 1022) &&
      decodesTo .distance fixedCtx (codeBits 5 0b10111 ++ fieldBits 10 1022) (.dist23 1022) &&
      decodesTo .distance fixedCtx (codeBits 5 0b11000 ++ fieldBits 11 2046) (.dist24 2046) &&
      decodesTo .distance fixedCtx (codeBits 5 0b11001 ++ fieldBits 11 2046) (.dist25 2046) &&
      decodesTo .distance fixedCtx (codeBits 5 0b11010 ++ fieldBits 12 4094) (.dist26 4094) &&
      decodesTo .distance fixedCtx (codeBits 5 0b11011 ++ fieldBits 12 4094) (.dist27 4094) &&
      decodesTo .distance fixedCtx (codeBits 5 0b11100 ++ fieldBits 13 8190) (.dist28 8190) &&
      decodesTo .distance fixedCtx (codeBits 5 0b11101 ++ fieldBits 13 8190) (.dist29 8190)) = true := by decide

theorem test_decode_filter_types :
    (decodesTo .defilterRow fixedCtx (fieldBits 8 0) .ftNone && decodesTo .defilterRow fixedCtx (fieldBits 8 1) .ftSub &&
      decodesTo .defilterRow fixedCtx (fieldBits 8 2) .ftUp && decodesTo .defilterRow fixedCtx (fieldBits 8 3) .ftAvg &&
      decodesTo .defilterRow fixedCtx (fieldBits 8 4) .ftPaeth &&
      decodesTo .defilterRow fixedCtx (fieldBits 8 5) (.ftReserved 5) &&
      decodesTo .defilterRow fixedCtx (fieldBits 8 255) (.ftReserved 255) &&
      decodesTo .filterRow fixedCtx (fieldBits 32 0x00000003) .filterFt0 &&
      decodesTo .filterRow fixedCtx (fieldBits 32 0x00010003) .filterFt1 &&
      decodesTo .filterRow fixedCtx (fieldBits 32 0x00020003) .filterFt2 &&
      decodesTo .filterRow fixedCtx (fieldBits 32 0x00030003) .filterFt3 &&
      decodesTo .filterRow fixedCtx (fieldBits 32 0x00040003) .filterFt4) = true := by decide

theorem test_decode_commands :
    decodeCommand 0x0 = .nop ∧ decodeCommand 0x1 = .inflate ∧ decodeCommand 0x2 = .defilter ∧
      decodeCommand 0x00040003 = .filter 4 ∧ decodeCommand 0x00050003 = .filterFt5 ∧ decodeCommand 0x00060003 = .filterFt6 ∧
      decodeCommand 0x00070003 = .filterFt7 ∧ decodeCommand 0x4 = .crcReset ∧ decodeCommand 0x5 = .crcUpdate ∧
      decodeCommand 0x6 = .crcCheck ∧ decodeCommand 0x27 = .huffBuild 2 ∧ decodeCommand 0x18 = .huffDecode 1 ∧
      decodeCommand 0x2009 = .bitsRead 32 ∧ decodeCommand 0xA = .bitsAlign ∧ decodeCommand 0xB = .bitsReset ∧
      decodeCommand 0xC = .cmdReservedC ∧ decodeCommand 0xD = .cmdReservedD ∧ decodeCommand 0xE = .cmdReservedE ∧
      decodeCommand 0xF = .clear ∧ decodeCommand 0xFFF8C0CA = .bitsAlign := by decide

/-- Reserved and truncated bit strings are refused by name (R96, R121, R101). -/
theorem test_decode_refuses :
    decodeSym bitListSource fixedDist 0 { pos := 0, bits := [true, true, true, true, false] ++ List.replicate 10 true } =
        .error .huffNoMatch ∧
      decodeSym bitListSource fixedDist 0 { pos := 0, bits := [true, true, true, true, true] } = .error .truncated ∧
      decodeSym bitListSource (emptyTable 32) 0 { pos := 0, bits := List.replicate 15 false } = .error .huffNoMatch :=
  ⟨rfl, rfl, rfl⟩

/-! ## Small states -/

/-- Bytes listed from address `a` on; zeros are not listed. -/
def bytesAt (a : Nat) (bytes : List Nat) : List Host.Cell :=
  (bytes.zipIdx.filter fun p => p.1 ≠ 0).map fun p => (a + p.2, BitVec.ofNat 8 p.1)

/-- IN = the bytes at 0x100, OUT of 64 bytes at 0x800. -/
def inState (bytes : List Nat) : State :=
  { State.reset with
    inBase := 0x100, inLen := BitVec.ofNat 32 bytes.length, outBase := 0x800, outCap := 64, mem := bytesAt 0x100 bytes }

/-- A running INFLATE in the given decoder state, with the fixed tables. -/
def inflateState (st : DbdState) (bytes : List Nat) : State :=
  { inState bytes with
    state := .busy, phase := .run, cmdl := 1, lastOp := 1, st := st, lit := fixedLit, dist := fixedDist, hlit := 257
    hdist := 1 }

/-- An accepted command with its start step due. -/
def startState (w : Word) (bytes : List Nat) : State := acceptCommand w (inState bytes)

/-- A running DEFILTER or FILTER on an image of 2 x 2 pixels in row `r`, with OUT holding `out`. -/
def rowState (op : Word) (r : Nat) (bytes out : List Nat) : State :=
  { inState bytes with
    state := .busy, phase := .run, cmdl := op, lastOp := cmdOp op, width := 2, height := 2, sfbRow := BitVec.ofNat 32 r
    mem := bytesAt 0x100 bytes ++ bytesAt 0x800 out }

/-- The outcome is a next state with `p`. -/
def leads (r : Result) (p : State → Bool) : Bool :=
  match r with
  | .next t => p t
  | _ => false

/-- The bytes OUT[0 .. n). -/
def outBytes (t : State) (n : Nat) : List Nat := (List.range n).map fun k => (t.outByte k).toNat

/-! ## One step each: expected values from the spec's examples -/

/-- R101: ReadBits(3) on B5 3C gives 5 and leaves IN_POS 1, BIT_BUF 16, BIT_CNT 5. -/
theorem test_readBits :
    ((readBits 3 (inState [0xB5, 0x3C])).map fun r => (r.1, r.2.inPos.toNat, r.2.bitBuf.toNat, r.2.bitCnt.toNat)) =
      some (5, 1, 0x16, 5) := by decide

/-- R102: after ReadBits(3) AlignToByte leaves IN_POS 1, BIT_CNT 0, bp 8. -/
theorem test_align :
    ((readBits 3 (inState [1, 2, 0])).map fun r => ((alignToByte r.2).inPos.toNat, (alignToByte r.2).bp)) = some (1, 8) := by
  decide

/-- R110: the example table. -/
theorem test_build :
    (build (fun _ => 0) 19 [3, 3, 3, 3, 3, 2, 4, 4]).counts = [0, 0, 1, 5, 2, 0, 0, 0, 0, 0, 0, 0, 0, 0, 0, 0] ∧
      (build (fun _ => 0) 19 [3, 3, 3, 3, 3, 2, 4, 4]).symbols.take 8 = [5, 0, 1, 2, 3, 4, 6, 7] := by decide

/-- R114: bits 1 1 1 0 give symbol 6 of that table. -/
theorem test_walk :
    decodeSym bitListSource (build (fun _ => 0) 19 [3, 3, 3, 3, 3, 2, 4, 4]) 0
        { pos := 0, bits := [true, true, true, false, false] } = .ok (6, { pos := 4, bits := [false] }) := rfl

/-- R131: IN = 73 is a final fixed block; the step builds the tables. -/
theorem test_block_header :
    leads (engineStep (inflateState .hdr [0x73, 0x84, 0x03, 0x00]))
      (fun t => t.bfinal == 1 && t.btype == 1 && t.st == .sym && t.bp == 3 && t.pending == .none) = true := by decide

/-- R135: IN = 07 raises BTYPE_RESERVED, class 4, at 0/0. -/
theorem test_btype_reserved :
    leads (engineStep (inflateState .hdr [0x07]))
      (fun t => t.state == .error && t.errDetail == 2 && t.errClass == 4 && t.errByte == 0 && t.errBit == 0) = true := by decide

/-- R132: a stored block with STORED_EN 0 raises STORED_UNSUPPORTED; with 1 it goes on. -/
theorem test_stored_enable :
    leads (engineStep { inflateState .hdr [0x01] with cfg := 0 }) (fun t => t.state == .error && t.errDetail == 3) = true ∧
      leads (engineStep (inflateState .hdr [0x01])) (fun t => t.st == .storedHdr) = true := by decide

/-- R134: IN = 05 is a final dynamic block. -/
theorem test_dynamic_block :
    leads (engineStep (inflateState .hdr [0x05])) (fun t => t.st == .dynHdr && t.btype == 2 && t.bfinal == 1) = true := by
  decide

/-- R140, P1: at bp 3 of 01 02 00 FD FF 48 69 the header gives STORED_REM 2 and bp 40. -/
theorem test_stored_header :
    leads (engineStep { inflateState .storedHdr [1, 2, 0, 0xFD, 0xFF, 0x48, 0x69] with inPos := 1, bitCnt := 5 })
      (fun t => t.storedRem == 2 && t.st == .storedByte && t.bp == 40) = true := by decide

/-- R140: 01 02 00 FC FF raises LEN_NLEN_MISMATCH at 0/3. -/
theorem test_stored_mismatch :
    leads (engineStep { inflateState .storedHdr [1, 2, 0, 0xFC, 0xFF] with inPos := 1, bitCnt := 5 })
      (fun t => t.errDetail == 4 && t.errByte == 0 && t.errBit == 3) = true := by decide

/-- R141, P1: the last byte 69 at bp 48 completes the final block. -/
theorem test_stored_byte :
    leads (engineStep
        { inflateState .storedByte [1, 2, 0, 0xFD, 0xFF, 0x48, 0x69] with
          inPos := 6, storedRem := 1, bfinal := 1, outLen := 1 })
      (fun t => t.state == .done && t.st == .idle && t.outLen == 2 && (t.outByte 1) == 0x69 && t.inPos == 7) = true := by decide

/-- R138: a full OUT raises OUT_OVERFLOW at 6/0. -/
theorem test_out_overflow :
    leads (engineStep
        { inflateState .storedByte [1, 2, 0, 0xFD, 0xFF, 0x48, 0x69] with
          inPos := 6, storedRem := 1, outLen := 1, outCap := 1 })
      (fun t => t.errDetail == 9 && t.errByte == 6 && t.errBit == 0) = true := by decide

/-- R146, P3: at bp 3 of 1D C3 .. HLIT 260, HDIST 4, HCLEN 18. -/
theorem test_dyn_header :
    leads (exec (.dynHeader 3 3 14) (inflateState .dynHdr []))
      (fun t => t.hlit == 260 && t.hdist == 4 && t.hclen == 18 && t.st == .dynCll) = true := by decide

/-- R147, P3: the 18 lengths give CLEN.counts[3] = 8 and CLEN.symbols[0..7]. -/
theorem test_dyn_cl_lengths :
    leads (exec (.dynClLengths [3, 3, 3, 3, 0, 0, 0, 0, 0, 0, 0, 3, 0, 3, 0, 3, 0, 3]) (inflateState .dynCll []))
      (fun t => t.clen.counts.getD 3 0 == 8 && t.clen.symbols.take 8 == [0, 1, 2, 3, 4, 16, 17, 18] && t.lensIdx == 0) = true := by
  decide

/-- R151, P3's last run: LENS[261..263] become LENS[260] = 2 and the tables are built. -/
theorem test_cl_repeat_prev :
    leads (exec (.clRepeatPrev 0)
        { inflateState .dynCl [] with
          hlit := 260, hdist := 4, lensIdx := 261, lens := List.replicate 260 0 ++ [2] ++ List.replicate 59 0 })
      (fun t => t.lensIdx == 264 && t.lens.getD 263 0 == 2 && t.lens.getD 264 0 == 0 && t.st == .sym &&
        t.dist.counts.getD 2 0 == 4) = true := by decide

/-- R151: symbol 16 first raises REPEAT_NO_PREVIOUS. -/
theorem test_cl_repeat_no_previous :
    leads (exec (.clRepeatPrev 0) (inflateState .dynCl [])) (fun t => t.errDetail == 10) = true := by decide

/-- R152, R153: runs of 10 and 106 zeros; past the total of 258 a run raises REPEAT_OVERFLOW. -/
theorem test_cl_zero_runs :
    leads (exec (.clRepeatZero3 7) { inflateState .dynCl [] with lensIdx := 245 }) (fun t => t.lensIdx == 255) = true ∧
      leads (exec (.clRepeatZero11 95) { inflateState .dynCl [] with lensIdx := 139 }) (fun t => t.lensIdx == 245) = true ∧
      leads (exec (.clRepeatZero11 127) { inflateState .dynCl [] with lensIdx := 138 }) (fun t => t.errDetail == 11) = true := by
  decide

/-- R160, P2: at bp 3 of 73 84 03 00 literal 'A'. -/
theorem test_literal :
    leads (engineStep { inflateState .sym [0x73, 0x84, 0x03, 0x00] with inPos := 1, bitCnt := 5, bitBuf := 0x0E })
      (fun t => t.outByte 0 == 0x41 && t.outLen == 1 && t.bp == 11) = true := by decide

/-- R162, P2: at bp 11 length 9 at distance 1 repeats 'A'. -/
theorem test_match :
    leads (engineStep
        { inflateState .sym [0x73, 0x84, 0x03, 0x00] with
          inPos := 2, bitCnt := 5, bitBuf := 0x10, outLen := 1
          mem := bytesAt 0x100 [0x73, 0x84, 0x03, 0x00] ++ [(0x800, 0x41)] })
      (fun t => outBytes t 11 == List.replicate 10 0x41 ++ [0] && t.outLen == 10 && t.bp == 23 && t.st == .sym) = true := by
  decide

/-- R161, P2: at bp 23 EOB completes with IN_POS 4 and BIT_CNT 2. -/
theorem test_eob :
    leads (engineStep { inflateState .sym [0x73, 0x84, 0x03, 0x00] with inPos := 3, bitCnt := 1, bfinal := 1 })
      (fun t => t.state == .done && t.st == .idle && t.inPos == 4 && t.bitCnt == 2) = true := by decide

/-- R162: 03 02 00 is a match at OUT_LEN 0, DIST_TOO_FAR at 0/3. -/
theorem test_dist_too_far :
    leads (engineStep { inflateState .sym [0x03, 0x02, 0x00] with inPos := 1, bitCnt := 5 })
      (fun t => t.errDetail == 8 && t.errByte == 0 && t.errBit == 3) = true := by decide

/-- R163: 286 at bp 11 of 73 1C 03 raises LITLEN_SYMBOL_INVALID at 1/3. -/
theorem test_reserved_symbol :
    leads (engineStep { inflateState .sym [0x73, 0x1C, 0x03] with inPos := 2, bitCnt := 5, bitBuf := 3 })
      (fun t => t.errDetail == 6 && t.errByte == 1 && t.errBit == 3) = true := by decide

/-- R165: LEN259 with DIST1 after 41 42 gives 41 42 41 42 41. -/
theorem test_overlapping_copy :
    leads (exec .dist1
        { inflateState .sym [] with pending := .distance 5, outLen := 2, mem := [(0x800, 0x41), (0x801, 0x42)] })
      (fun t => outBytes t 7 == [0x41, 0x42, 0x41, 0x42, 0x41, 0x42, 0x41]) = true := by decide

/-- The filtered row of R241 to R245 as row 1 of a 2 x 2 image, after the prior raw row, with its type byte. -/
def filteredRow (t : Nat) : List Nat := List.replicate 9 0 ++ [t, 0x0A, 0x14, 0x1E, 0x28, 0xFA, 0xF0, 0xE6, 0xDC]

/-- DEFILTER of that row gives the raw row `raw`. -/
def defilters (t : Nat) (raw : List Nat) : Bool :=
  leads (engineStep (rowState 2 1 (filteredRow t) [5, 6, 7, 8, 0x64, 0xC8, 0xFF, 0]))
    (fun u => (outBytes u 16).drop 8 == raw && u.state == .done && u.outLen == 16)

theorem test_defilter_rows :
    (defilters 0 [0x0A, 0x14, 0x1E, 0x28, 0xFA, 0xF0, 0xE6, 0xDC] && defilters 1 [0x0A, 0x14, 0x1E, 0x28, 4, 4, 4, 4] &&
      defilters 2 [0x0F, 0x1A, 0x25, 0x30, 0x5E, 0xB8, 0xE5, 0xDC] &&
      defilters 3 [0x0C, 0x17, 0x21, 0x2C, 0x32, 0x5F, 0x76, 0xF2] &&
      defilters 4 [0x0F, 0x1A, 0x25, 0x30, 0x5E, 0xB8, 0xE5, 0x0C]) = true := by decide

/-- R247: a row 1 filter byte FF raises FILTER_TYPE_INVALID, class 6, with ERR_BYTE 9. -/
theorem test_filter_type_invalid :
    leads (engineStep (rowState 2 1 (filteredRow 0xFF) []))
      (fun u => u.errDetail == 13 && u.errClass == 6 && u.errByte == 9 && u.errBit == 0) = true := by decide

/-- R248: row 1 of the raw image FF0000FF 00FF00FF / 0000FFFF FFFFFFFF, filtered with type `t`. -/
def filters (t : Nat) (row : List Nat) : Bool :=
  leads (engineStep
      { rowState 3 1 [0xFF, 0, 0, 0xFF, 0, 0xFF, 0, 0xFF, 0, 0, 0xFF, 0xFF, 0xFF, 0xFF, 0xFF, 0xFF] [] with
        sfbFt := BitVec.ofNat 3 t })
    (fun u => (outBytes u 18).drop 9 == row && u.state == .done && u.outLen == 18)

theorem test_filter_rows :
    (filters 0 [0, 0, 0, 0xFF, 0xFF, 0xFF, 0xFF, 0xFF, 0xFF] && filters 1 [1, 0, 0, 0xFF, 0xFF, 0xFF, 0xFF, 0, 0] &&
      filters 2 [2, 1, 0, 0xFF, 0, 0xFF, 0, 0xFF, 0] && filters 3 [3, 0x81, 0, 0xFF, 0x80, 0xFF, 0x80, 0x80, 0] &&
      filters 4 [4, 1, 0, 0xFF, 0, 0xFF, 0, 0, 0]) = true := by decide +kernel

/-- R245: the table of PaethPredictor values. -/
theorem test_paeth :
    predPaeth 0 0 0 = 0 ∧ predPaeth 10 20 10 = 20 ∧ predPaeth 20 10 10 = 20 ∧ predPaeth 10 10 20 = 10 ∧
      predPaeth 100 50 80 = 80 ∧ predPaeth 255 255 0 = 255 ∧ predPaeth 0 255 255 = 0 ∧ predPaeth 50 60 55 = 55 ∧
      predPaeth 1 3 2 = 2 ∧ predPaeth 5 2 4 = 2 ∧ predPaeth 20 0 10 = 10 ∧ predPaeth 5 10 0 = 10 := by decide

/-- R254: FTYPE 5 raises FILTER_TYPE_INVALID with ERR_BYTE 0. -/
theorem test_ftype_invalid :
    leads (engineStep (startState 0x00050003 []))
      (fun t => t.errDetail == 13 && t.errClass == 6 && t.errByte == 0) = true := by decide

/-- R274: WIDTH = HEIGHT = 2 with IN_LEN 17 raises SRC_SHORT; with 18 the first row is due. -/
theorem test_defilter_start :
    leads (engineStep { startState 2 (List.replicate 17 1) with width := 2, height := 2 })
        (fun t => t.errDetail == 14 && t.errClass == 7) = true ∧
      leads (engineStep { startState 2 (List.replicate 18 1) with width := 2, height := 2, sfbRow := 9 })
        (fun t => t.state == .busy && t.sfbRow == 0) = true := by decide

/-- R61, R62: IN over OUT raises ARG_INVALID. -/
theorem test_windows_overlap :
    leads (engineStep { startState 1 [3, 0] with outBase := 0x101 }) (fun t => t.errDetail == 17 && t.errClass == 7) = true := by
  decide

/-- R263: the four steps over "IEND", and CRC_VALUE AE426082. -/
theorem test_crc_update :
    crcByte 0xFFFFFFFF 0x49 = 0x22FDE946 ∧ crcByte 0x22FDE946 0x45 = 0x992BAC53 ∧ crcByte 0x992BAC53 0x4E = 0x639F4775 ∧
      leads (engineStep (startState 5 [0x49, 0x45, 0x4E, 0x44]))
        (fun t => t.state == .done && t.crcState == 0x51BD9F7D && t.crcValue == 0xAE426082) = true := by decide

/-- R265: AE 42 60 82 matches, AE 42 60 83 does not, and both are DONE. -/
theorem test_crc_check :
    leads (engineStep { startState 6 [0xAE, 0x42, 0x60, 0x82] with crcState := 0x51BD9F7D })
        (fun t => t.state == .done && t.result == 0xAE426082 && t.crcMatch) = true ∧
      leads (engineStep { startState 6 [0xAE, 0x42, 0x60, 0x83] with crcState := 0x51BD9F7D })
        (fun t => t.state == .done && !t.crcMatch) = true := by decide

/-- R283: TBL 2, HUFF_N 8 and 03 03 03 03 03 02 04 04. -/
theorem test_huff_build :
    leads (engineStep { startState 0x27 [3, 3, 3, 3, 3, 2, 4, 4] with huffN := 8 })
      (fun t => t.result == 8 && t.clen.counts.getD 3 0 == 5 && t.clen.symbols.take 8 == [5, 0, 1, 2, 3, 4, 6, 7]) = true := by
  decide

/-- R284: then IN = 07 decodes 6 and leaves bp 4. -/
theorem test_huff_decode :
    leads (engineStep { startState 0x28 [7] with clen := build (fun _ => 0) 19 [3, 3, 3, 3, 3, 2, 4, 4] })
      (fun t => t.result == 6 && t.bp == 4 && t.inPos == 1 && t.bitCnt == 4) = true := by decide

/-- R285: NBITS 8 at bp 3 of B5 3C gives 96; NBITS 0 and 33 raise ARG_INVALID. -/
theorem test_bits_read :
    leads (engineStep { startState 0x809 [0xB5, 0x3C] with inPos := 1, bitCnt := 5, bitBuf := 0x16 })
        (fun t => t.result == 0x96 && t.inPos == 2 && t.bitCnt == 5) = true ∧
      leads (engineStep (startState 0x009 [0xB5])) (fun t => t.errDetail == 17) = true ∧
      leads (engineStep (startState 0x2109 [0xB5])) (fun t => t.errDetail == 17) = true := by decide

/-- R286, R287. -/
theorem test_bits_align_reset :
    leads (engineStep { startState 0xA [] with inPos := 2, bitCnt := 5, bitBuf := 7 })
        (fun t => t.inPos == 2 && t.bitCnt == 0 && t.bitBuf == 0) = true ∧
      leads (engineStep { startState 0xB [] with inPos := 7, bitCnt := 3, bitBuf := 7 })
        (fun t => t.inPos == 0 && t.bitCnt == 0) = true := by decide

/-- R272: CMD NOP leaves STATUS 2. R288: OP D leaves STATUS 000D1073. -/
theorem test_nop_and_reserved :
    leads (engineStep (startState 0 [])) (fun t => t.statusWord == 2) = true ∧
      leads (engineStep (startState 0xD [])) (fun t => t.statusWord == 0x000D1073) = true := by decide

/-- R270, R289: ERROR ignores a command and takes CLEAR. -/
theorem test_error_is_sticky :
    leads (step { State.reset with state := .error, errDetail := 16, errClass := 7, moves := [.writeReg 0 1] })
        (fun t => t.state == .error && t.errDetail == 16) = true ∧
      leads (step { State.reset with state := .error, errDetail := 16, errClass := 7, moves := [.writeReg 0 0xF] })
        (fun t => t.statusWord == 0x000F0000) = true := by decide

/-- The host's questions (notes/assumptions/8.md): a symbol, a distance, a command and a filter row are fetched and run. -/
theorem test_fetch_words :
    decodeTableWord 16 257 = some .len257 ∧ decodeTableWord 16 29 = some (.dist29 0) ∧ decodeTableWord 8 31 = some .distReserved31 ∧
      decodeTableWord 8 0xB = some .bitsReset ∧ decodeTableWord 24 0x020003 = some .filterFt2 := ⟨rfl, rfl, rfl, rfl, rfl⟩
theorem test_step_runs_fetched_word :
    leads (step (State.reset.withFetchWord 8 0)) (fun t => t.statusWord == 2) = true ∧
      leads (step (State.reset.withFetchWord 8 0xF)) (fun t => t.lastOp == 0xF) = true := by decide

/-! ## Witnesses: for every statement with hypotheses, terms that meet them, clause by clause, at the ends of the ranges -/

/-- The example lengths of R110. -/
def exLens : List Nat := [3, 3, 3, 3, 3, 2, 4, 4]

theorem witness_DecodeEncodeRoundTrip :
    (Instr.len265 1).wf = true ∧ (encode tableCtx 0 (.len265 1)).isSome ∧ (encode tableCtx 3 (.storedHeader 2 0xFFFD)).isSome ∧
      (encode tableCtx 0 (.dynClLengths [1, 2, 3, 7])).isSome ∧ (encode { tableCtx with hclen := 19 } 0 (.dynClLengths (List.replicate 19 7))).isSome ∧
      (encode tableCtx 0 (.dist29 8191)).isSome ∧ (encode tableCtx 0 (.ftReserved 5)).isSome ∧
      (encode tableCtx 0 (.bitsRead 63)).isSome := by decide

theorem witness_EveryInstructionEncodes :
    (Instr.dynClLengths [0, 0, 0, 0]).wf = true ∧ (Instr.ftReserved 255).wf = true ∧ (Instr.filter 4).wf = true := by decide

theorem witness_CommandBitsOutsideFieldsIgnored :
    (0x00020003 : Word) &&& 0x00073F3F = 0xFFFAC0C3 &&& 0x00073F3F := by decide

theorem witness_BuildSortsSymbols :
    ((∀ l ∈ exLens, l ≤ 15) ∧ exLens.length ≤ 19 ∧ exLens.length < 512) ∧
      (∀ l ∈ List.replicate 19 15, l ≤ 15) ∧ (List.replicate 19 15).length ≤ 19 := by decide

/-- A walk that gives a symbol, one that matches nothing in exactly 15 bits, one that runs out of 14 (R116, R121). -/
theorem witness_WalkReadsOnlyBuiltEntries :
    ((∀ l ∈ exLens, l ≤ 15) ∧ exLens.length ≤ 19) ∧
      decodeSym bitListSource (build (fun _ => 0) 19 exLens) 0 { pos := 0, bits := [true, true, true, true] } =
        .ok (7, { pos := 4, bits := [] }) ∧
      decodeSym bitListSource (build (fun _ => 0) 19 [1]) 0 { pos := 0, bits := List.replicate 15 true } = .error .huffNoMatch ∧
      decodeSym bitListSource (build (fun _ => 0) 19 [1]) 0 { pos := 0, bits := List.replicate 14 true } = .error .truncated :=
  ⟨by decide, rfl, rfl, rfl⟩

/-- The cursor at bp 0 of two bytes and at bp 3: 16 and 13 bits are there, 17, 14 and 32 are not. -/
theorem witness_ReadBitsReadsStream :
    ((inState [0xB5, 0x3C]).cursorOk ∧ (inState [0xB5, 0x3C]).bp + 16 ≤ 8 * (inState [0xB5, 0x3C]).inLen.toNat ∧
        8 * (inState [0xB5, 0x3C]).inLen.toNat < (inState [0xB5, 0x3C]).bp + 17) ∧
      { inState [0xB5, 0x3C] with inPos := 1, bitCnt := 5, bitBuf := 0x16 }.cursorOk ∧
      { inState [0xB5, 0x3C] with inPos := 1, bitCnt := 5, bitBuf := 0x16 }.bp + 13 =
        8 * { inState [0xB5, 0x3C] with inPos := 1, bitCnt := 5, bitBuf := 0x16 }.inLen.toNat := by decide

theorem witness_CursorDecodesTheStream :
    (inflateState .hdr [0x73, 0x84]).cursorOk ∧
      { inflateState .sym [0x73, 0x84] with inPos := 1, bitCnt := 5, bitBuf := 0x0E }.cursorOk := by decide

/-- Each clause: an element, a distance part, a DEFILTER row, a FILTER row, a start step. -/
theorem witness_StepRunsDecodedInstruction :
    (∃ i t, elemOf (inflateState .sym [0]).st = some .litLen ∧ (inflateState .sym [0]).moves = [] ∧
      (inflateState .sym [0]).pending = .none ∧ cmdOp (inflateState .sym [0]).cmdl = 1 ∧
      decode cursorSource .litLen (markStart (inflateState .sym [0])).ctx (markStart (inflateState .sym [0])) = .ok (i, t)) ∧
    (∃ i t, decode cursorSource .distance (inflateState .sym [0]).ctx { inflateState .sym [0] with pending := .distance 3 } =
      .ok (i, t)) ∧
    ((rowState 2 0 [] []).state = .busy ∧ (rowState 2 0 [] []).phase = .run ∧ cmdOp (rowState 2 0 [] []).cmdl = 2) ∧
    ((rowState 3 0 [] []).state = .busy ∧ (rowState 3 0 [] []).phase = .run ∧ cmdOp (rowState 3 0 [] []).cmdl = 3) ∧
    ((startState 1 []).state = .busy ∧ (startState 1 []).phase = .start ∧ (startState 1 []).moves = []) :=
  ⟨⟨_, _, rfl, rfl, rfl, rfl, rfl⟩, ⟨_, _, rfl⟩, ⟨rfl, rfl, rfl⟩, ⟨rfl, rfl, rfl⟩, rfl, rfl, rfl⟩

/-- A running INFLATE whose CLEN and DIST have no codes. -/
def codelessState (st : DbdState) (bytes : List Nat) : State :=
  { inflateState st bytes with clen := emptyTable 19, dist := emptyTable 32 }

/-- Fetches that fail: a code-length symbol and a distance symbol, on 15 bits that match nothing and on a byte less. -/
theorem witness_StepRunsDecodedInstruction_fetch_fails :
    elemOf (codelessState .dynCl []).st = some .clSymbol ∧
      decode cursorSource .clSymbol (codelessState .dynCl [0, 0]).ctx (markStart (codelessState .dynCl [0, 0])) =
        .error .huffNoMatch ∧
      decode cursorSource .clSymbol (codelessState .dynCl [0]).ctx (markStart (codelessState .dynCl [0])) = .error .truncated ∧
      decode cursorSource .distance (codelessState .sym [0, 0]).ctx { codelessState .sym [0, 0] with pending := .distance 3 } =
        .error .huffNoMatch ∧
      decode cursorSource .distance (codelessState .sym [0]).ctx { codelessState .sym [0] with pending := .distance 3 } =
        .error .truncated := ⟨rfl, rfl, rfl, rfl, rfl⟩

theorem witness_BlockHeaderSelectsBlockType :
    State.reset.storedEn = true ∧ { State.reset with cfg := 2 }.storedEn = false := by decide

/-- A mismatch of one bit, LEN 0 in a final block and in another, the largest LEN; a header that is one bit short. -/
theorem witness_StoredHeaderChecksLength :
    ((0xFFFF : BitVec 16) ≠ ~~~1 ∧ (0xFFFF : BitVec 16) = ~~~0 ∧ (0 : BitVec 16) = ~~~0xFFFF) ∧
      { State.reset with bfinal := 1 }.bfinal = 1 ∧ State.reset.bfinal = 0 ∧
      ([true, false, true, false, true] : List Bool).length = padLength 3 ∧ ([] : List Bool).length = padLength 8 ∧
      (List.replicate 36 true).length < padLength 3 + 32 := by decide

theorem witness_LiteralsAndEndOfBlock :
    (inState []).outLen.toNat < (inState []).outCap.toNat ∧
      { inState [] with outLen := 63 }.outLen.toNat < { inState [] with outLen := 63 }.outCap.toNat ∧
      { inState [] with outLen := 64 }.outLen = { inState [] with outLen := 64 }.outCap ∧
      { inState [] with bfinal := 1 }.bfinal = 1 ∧ (inState []).bfinal = 0 := by decide

/-- HLIT 286 and HDIST 30 pass the strict check, 287 or 31 do not. -/
theorem witness_DynamicHeaderCounts :
    ({ State.reset with cfg := 3 }.strictCounts = true ∧ State.reset.strictCounts = false) ∧
      ¬(286 < (29 : BitVec 5).toNat + 257 ∨ 30 < (29 : BitVec 5).toNat + 1) ∧ 286 < (30 : BitVec 5).toNat + 257 ∧
      30 < (30 : BitVec 5).toNat + 1 := by decide

theorem witness_CodeLengthCodeLengths :
    ([1, 2, 3, 7] : List (BitVec 3)).length ≤ 19 ∧ (List.replicate 19 (7 : BitVec 3)).length ≤ 19 := by decide

/-- Between code-length symbols of a block of 258 lengths, at LENS_IDX `n`. -/
def clState (n : Nat) : State := { inflateState .dynCl [] with lensIdx := BitVec.ofNat 9 n }

/-- Each run at its last place and one past it: 257 and 258, 255 and 256 for three, 247 and 248 for eleven. -/
theorem witness_CodeLengthSymbols :
    ((clState 0).lensTotal ≤ (clState 0).lens.length ∧ (clState 0).lensTotal = 258) ∧
      (clState 257).lensIdx.toNat < (clState 257).lensTotal ∧
      ((clState 255).lensIdx ≠ 0 ∧ (clState 255).lensIdx.toNat + (3 + (0 : BitVec 2).toNat) = (clState 255).lensTotal) ∧
      (clState 256).lensTotal < (clState 256).lensIdx.toNat + (3 + (0 : BitVec 2).toNat) ∧
      (clState 248).lensIdx.toNat + (3 + (7 : BitVec 3).toNat) = (clState 248).lensTotal ∧
      (clState 249).lensTotal < (clState 249).lensIdx.toNat + (3 + (7 : BitVec 3).toNat) ∧
      (clState 120).lensIdx.toNat + (11 + (127 : BitVec 7).toNat) = (clState 120).lensTotal ∧
      (clState 121).lensTotal < (clState 121).lensIdx.toNat + (11 + (127 : BitVec 7).toNat) ∧
      (clState 0).lensIdx = 0 := by decide +kernel

theorem witness_LengthCodesWithoutExtraBits : tableCtx.lit = fixedLit ∧ 0 < 2 ^ 0 := ⟨rfl, by decide⟩

theorem witness_LengthCodes265To276 : tableCtx.lit = fixedLit ∧ 1 < 2 ^ 1 ∧ 3 < 2 ^ 2 ∧ 7 < 2 ^ 3 := ⟨rfl, by decide⟩

theorem witness_LengthCodes277To284 : tableCtx.lit = fixedLit ∧ 15 < 2 ^ 4 ∧ 31 < 2 ^ 5 := ⟨rfl, by decide⟩

/-- A pending length `len` with `n` bytes out and room for `cap`. -/
def matchState (len n cap : Nat) : State :=
  { inflateState .sym [] with pending := .distance len, outLen := BitVec.ofNat 32 n, outCap := BitVec.ofNat 32 cap }

/-- The three cases of `distanceRule` at distance `dist`: the whole output back into a window that fits exactly, one byte too far,
one byte of room too few. -/
def distanceCases (dist : Nat) : Prop :=
  ((matchState 3 dist (dist + 3)).pending = .distance 3 ∧ dist ≤ (matchState 3 dist (dist + 3)).outLen.toNat ∧
      (matchState 3 dist (dist + 3)).outLen.toNat + 3 ≤ (matchState 3 dist (dist + 3)).outCap.toNat) ∧
    (matchState 3 (dist - 1) 64).outLen.toNat < dist ∧
    (dist ≤ (matchState 258 dist (dist + 257)).outLen.toNat ∧
      (matchState 258 dist (dist + 257)).outLen.toNat ≤ (matchState 258 dist (dist + 257)).outCap.toNat ∧
      (matchState 258 dist (dist + 257)).outCap.toNat < (matchState 258 dist (dist + 257)).outLen.toNat + 258)

theorem witness_DistanceCodes0To9 : fixedCtx.dist = fixedDist ∧ distanceCases 1 ∧ distanceCases 32 :=
  ⟨rfl, by unfold distanceCases; decide, by unfold distanceCases; decide⟩

theorem witness_DistanceCodes10To19 : fixedCtx.dist = fixedDist ∧ distanceCases 33 ∧ distanceCases 1024 :=
  ⟨rfl, by unfold distanceCases; decide, by unfold distanceCases; decide⟩

theorem witness_DistanceCodes20To29 : fixedCtx.dist = fixedDist ∧ distanceCases 1025 ∧ distanceCases 32768 :=
  ⟨rfl, by unfold distanceCases; decide, by unfold distanceCases; decide⟩

theorem witness_ReservedEncodingsRaise :
    (inState [0]).windowsOk = true ∧ { inState [0] with outBase := 0x100 }.windowsOk = false := by decide

/-- P2 at bp 11: length 9 (LEN263) at distance 1, with one byte out. -/
def p2Match : State :=
  { inflateState .sym [0x73, 0x84, 0x03, 0x00] with
    inPos := 2, bitCnt := 5, bitBuf := 0x10, outLen := 1, mem := bytesAt 0x100 [0x73, 0x84, 0x03, 0x00] ++ [(0x800, 0x41)] }

theorem witness_MatchInOneStep :
    (p2Match.inflating ∧ p2Match.st = .sym ∧ p2Match.cursorOk) ∧ (0 < 2 ^ lext 263 ∧ 0 < 2 ^ dext 0) ∧
      (∃ y z, decode bitListSource .litLen p2Match.ctx p2Match.rest = .ok (litLenInstr 263 0, y) ∧
        decode bitListSource .distance p2Match.ctx y = .ok (distInstr 0 0, z)) ∧
      dbase 0 + 0 ≤ p2Match.outLen.toNat ∧ p2Match.outLen.toNat + (lbase 263 + 0) ≤ p2Match.outCap.toNat :=
  ⟨by decide, by decide, ⟨_, _, rfl, rfl⟩, by decide, by decide⟩

/-- Length 258 at distance 1 that fills OUT exactly, and a list of one and of two bytes. -/
theorem witness_OverlappingCopyRepeats :
    ((matchState 258 1 259).pending = .distance 258 ∧ 0 < 2 ^ dext 0 ∧ dbase 0 + 0 ≤ (matchState 258 1 259).outLen.toNat ∧
        (matchState 258 1 259).outLen.toNat + 258 ≤ (matchState 258 1 259).outCap.toNat) ∧
      1 ≤ ([0x41] : List Byte).length ∧ 2 ≤ ([0x41, 0x42] : List Byte).length := by decide

/-- Rows 0 and 1, the last, of a 2 x 2 image whose windows fit. -/
theorem witness_DefilterRowReconstructs :
    (rowState 2 0 (filteredRow 4) []).rowReady ((rowState 2 0 (filteredRow 4) []).stride + 1)
        (rowState 2 0 (filteredRow 4) []).stride ∧
      (rowState 2 1 (filteredRow 4) []).rowReady ((rowState 2 1 (filteredRow 4) []).stride + 1)
        (rowState 2 1 (filteredRow 4) []).stride := by decide

theorem witness_FilterRowPredicts :
    (rowState 3 0 (filteredRow 4) []).rowReady (rowState 3 0 (filteredRow 4) []).stride
        ((rowState 3 0 (filteredRow 4) []).stride + 1) ∧
      (rowState 3 1 (filteredRow 4) []).rowReady (rowState 3 1 (filteredRow 4) []).stride
        ((rowState 3 1 (filteredRow 4) []).stride + 1) := by decide

/-- A tie of a and b, a tie of b and c, c alone. -/
theorem witness_PaethPicksNearest :
    predPaeth 10 10 10 = 10 ∧ predPaeth 20 10 10 = 20 ∧ predPaeth 50 60 55 = 55 ∧
      (((20 : Int) + 10 - 10 - 20).natAbs ≤ ((20 : Int) + 10 - 10 - 10).natAbs) ∧
      (((10 : Int) + 20 - 10 - 20).natAbs < ((10 : Int) + 20 - 10 - 10).natAbs) ∧
      (((50 : Int) + 60 - 55 - 55).natAbs < ((50 : Int) + 60 - 55 - 50).natAbs) := by decide

/-- A start step of a row command on WIDTH 2 and HEIGHT `h`, with IN of `n` bytes and OUT of `m`. -/
def imageState (op : Word) (h n m : Nat) : State :=
  { startState op (List.replicate n 1) with width := 2, height := BitVec.ofNat 32 h, outCap := BitVec.ofNat 32 m }

/-- The image fits exactly, or IN or OUT is a byte short, or the windows overlap; HEIGHT 0 needs nothing. -/
theorem witness_RowCommandsStart :
    ((imageState 2 2 18 16).windowsOk = true ∧ (4 * 2 + 1) * 2 ≤ (imageState 2 2 18 16).inLen.toNat ∧
        4 * 2 * 2 ≤ (imageState 2 2 18 16).outCap.toNat) ∧
      (imageState 2 2 17 16).inLen.toNat < (4 * 2 + 1) * 2 ∧ (imageState 2 2 18 15).outCap.toNat < 4 * 2 * 2 ∧
      ((imageState 3 2 16 18).windowsOk = true ∧ 4 * 2 * 2 ≤ (imageState 3 2 16 18).inLen.toNat ∧
        (4 * 2 + 1) * 2 ≤ (imageState 3 2 16 18).outCap.toNat) ∧
      (imageState 3 2 15 18).inLen.toNat < 4 * 2 * 2 ∧ (imageState 3 2 16 17).outCap.toNat < (4 * 2 + 1) * 2 ∧
      ((imageState 2 0 0 0).windowsOk = true ∧ (imageState 2 0 0 0).height = 0) ∧
      { imageState 2 2 18 16 with outBase := 0x100 }.windowsOk = false := by decide

theorem witness_FilterRoundTrip :
    ((imageState 0x00040003 2 16 18).state = .busy ∧ (imageState 0x00040003 2 16 18).phase = .start ∧
        (imageState 0x00040003 2 16 18).moves = [] ∧ cmdOp (imageState 0x00040003 2 16 18).cmdl = 3 ∧
        (cmdFtype (imageState 0x00040003 2 16 18).cmdl).toNat ≤ 4 ∧ (imageState 0x00040003 2 16 18).windowsOk = true ∧
        (imageState 0x00040003 2 16 18).stride * (imageState 0x00040003 2 16 18).height.toNat ≤
          (imageState 0x00040003 2 16 18).inLen.toNat ∧
        ((imageState 0x00040003 2 16 18).stride + 1) * (imageState 0x00040003 2 16 18).height.toNat ≤
          (imageState 0x00040003 2 16 18).outCap.toNat) ∧
      leads (Host.Core.run core 3 (imageState 0x00040003 2 16 18))
        (fun t : State =>
          { acceptCommand 2 t with inBase := t.outBase, inLen := t.outLen, outBase := 0x1000, outCap := 16 }.windowsOk) =
        true := by decide +kernel

theorem witness_CrcUpdateRunsOverIn :
    { State.reset with inBase := 0xFFFFFFFF, inLen := 1 }.inBase.toNat +
        { State.reset with inBase := 0xFFFFFFFF, inLen := 1 }.inLen.toNat ≤ 2 ^ 32 ∧
      2 ^ 32 < { State.reset with inBase := 0xFFFFFFFF, inLen := 2 }.inBase.toNat +
        { State.reset with inBase := 0xFFFFFFFF, inLen := 2 }.inLen.toNat := by decide

theorem witness_CrcUpdateIsIncremental :
    (inState [0x49, 0x45, 0x4E, 0x44]).inBase.toNat + (2 : Word).toNat + (2 : Word).toNat ≤ 2 ^ 32 ∧
      (2 : Word).toNat + (2 : Word).toNat < 2 ^ 32 := by decide

theorem witness_CrcCheckCompares :
    ((inState [1, 2, 3, 4]).inBase.toNat + (inState [1, 2, 3, 4]).inLen.toNat ≤ 2 ^ 32 ∧ 4 ≤ (inState [1, 2, 3, 4]).inLen.toNat) ∧
      (inState [1, 2, 3]).inLen.toNat < 4 ∧
      2 ^ 32 < { State.reset with inBase := 0xFFFFFFFF, inLen := 4 }.inBase.toNat + (4 : Word).toNat := by decide

theorem witness_InflateStarts :
    (startState 1 [3, 0]).windowsOk = true ∧ { startState 1 [3, 0] with inBase := 0x7FE }.windowsOk = true ∧
      { startState 1 [3, 0] with inBase := 0x7FF }.windowsOk = false ∧
      { startState 1 [3, 0] with inBase := 0xFFFFFFFF }.windowsOk = false := by decide

/-- A state whose host lowered IN_LEN to 0 with five bits buffered (R334 (b)). -/
def staleState : State := { startState 9 [] with inPos := 1, bitCnt := 5, bitBuf := 0x16 }

/-- A state whose host moved IN between two commands: five bits of an old byte are buffered, two new bytes follow (R334 (a)). -/
def movedState : State := { startState 9 [1, 2, 3] with inPos := 1, bitCnt := 5, bitBuf := 0x1F }

/-- Outside the cursor invariant: 21 bits are there, 22 are not. -/
theorem witness_BitsReadReturnsStreamBits_moved :
    ¬movedState.cursorOk ∧ movedState.inOk = true ∧ (21 : BitVec 6).toNat ≤ movedState.cursorBits.length ∧
      movedState.cursorBits.length < (22 : BitVec 6).toNat ∧ movedState.bitCnt.toNat ≤ 8 * movedState.inPos.toNat ∧
      movedState.cursorBits.take 8 = [true, true, true, true, true, false, true, false] := by decide

/-- The walk over the buffered bits 11111 of the old byte and on: a symbol, no match. -/
theorem witness_HuffDecodeReturnsSymbol_moved :
    (∃ y, decodeSym bitListSource (build (fun _ => 0) 19 exLens) 0 { pos := 0, bits := movedState.cursorBits } = .ok (7, y)) ∧
      decodeSym bitListSource movedState.clen 0 { pos := 0, bits := movedState.cursorBits } = .error .huffNoMatch ∧
      decodeSym bitListSource staleState.clen 0 { pos := 0, bits := staleState.cursorBits } = .error .truncated :=
  ⟨⟨_, rfl⟩, rfl, rfl⟩

/-- 1, 32, 0 and 33 bits; a stream that ends at bp + n and one a bit short; five buffered bits of an exhausted IN, and six. -/
theorem witness_BitsReadReturnsStreamBits :
    ((startState 9 [1, 2, 3, 4]).cursorOk ∧ (startState 9 [1, 2, 3, 4]).inOk = true ∧
        (startState 9 [1, 2, 3, 4]).bp + (32 : BitVec 6).toNat ≤ 8 * (startState 9 [1, 2, 3, 4]).inLen.toNat) ∧
      8 * (startState 9 []).inLen.toNat < (startState 9 []).bp + (1 : BitVec 6).toNat ∧
      ((0 : BitVec 6).toNat = 0 ∧ 32 < (33 : BitVec 6).toNat ∧ { startState 9 [1, 2] with inBase := 0xFFFFFFFF }.inOk = false) ∧
      (staleState.inOk = true ∧ (5 : BitVec 6).toNat ≤ staleState.bitCnt.toNat) ∧
      staleState.bitCnt.toNat < (6 : BitVec 6).toNat ∧ staleState.inLen.toNat ≤ staleState.inPos.toNat ∧
      staleState.bitCnt.toNat ≤ 8 * staleState.inPos.toNat := by decide

/-- A symbol, no match, a truncated walk, TBL 3 and a window that wraps. -/
theorem witness_HuffDecodeReturnsSymbol :
    ((startState 8 [7]).cursorOk ∧ (startState 8 [7]).inOk = true ∧ (2 : BitVec 2) ≠ 3) ∧
      (∃ y, decodeSym bitListSource { startState 8 [7] with clen := build (fun _ => 0) 19 exLens }.clen 0 (startState 8 [7]).rest =
        .ok (6, y)) ∧
      decodeSym bitListSource (startState 8 [7, 0]).clen 0 (startState 8 [7, 0]).rest = .error .huffNoMatch ∧
      decodeSym bitListSource (startState 8 [7]).clen 0 (startState 8 [7]).rest = .error .truncated ∧
      { startState 8 [1, 2] with inBase := 0xFFFFFFFF }.inOk = false :=
  ⟨by decide, ⟨_, rfl⟩, rfl, rfl, by decide⟩

/-- 19 lengths of IN for CLEN: they fit; 20 exceed the table; 18 bytes are too few; a length of 16 is refused. -/
theorem witness_HuffBuildBuildsTable :
    ({ startState 0x27 (List.replicate 19 15) with huffN := 19 }.inOk = true ∧
        { startState 0x27 (List.replicate 19 15) with huffN := 19 }.huffN.toNat ≤ 19 ∧
        { startState 0x27 (List.replicate 19 15) with huffN := 19 }.huffN.toNat ≤
          { startState 0x27 (List.replicate 19 15) with huffN := 19 }.inLen.toNat ∧
        ∀ i, i < 19 → ({ startState 0x27 (List.replicate 19 15) with huffN := 19 }.inByte i).toNat ≤ 15) ∧
      19 < { startState 0x27 [] with huffN := 20 }.huffN.toNat ∧
      { startState 0x27 (List.replicate 18 15) with huffN := 19 }.inLen.toNat < 19 ∧
      15 < ({ startState 0x27 [16] with huffN := 1 }.inByte 0).toNat := by decide

theorem witness_InflateErrorAtElementStart :
    ∃ t, (inflateState .hdr [0x07]).inflating ∧ engineStep (inflateState .hdr [0x07]) = .next t ∧ t.state = .error :=
  ⟨_, by decide, rfl, rfl⟩

theorem witness_RegistersReadAsMapped :
    State.reset.state ≠ .busy ∧ { State.reset with state := .done }.state ≠ .busy ∧
      { State.reset with state := .error }.state ≠ .busy := by decide

theorem witness_RegisterAccessRules :
    (startState 1 []).state = .busy ∧ 10 ≤ (10 : BitVec 6).toNat ∧ (16 : BitVec 6).toNat ≤ 16 ∧ (9 : BitVec 6).toNat < 10 ∧
      16 < (17 : BitVec 6).toNat ∧ 10 ≤ (63 : BitVec 6).toNat := by
  decide

theorem witness_OperandRegistersAreWritten : State.reset.state ≠ .busy := by decide

theorem witness_CommandWrites :
    (State.reset.state = .idle ∧ cmdOp 0xE ≠ 0xF ∧ cmdOp 0xFFFFFF4F = 0xF) ∧
      { State.reset with state := .done }.state = .done ∧ { State.reset with state := .error }.state = .error ∧
      (startState 1 []).state = .busy := by decide

theorem witness_ResetGivesResetState : { startState 1 [1] with moves := [.reset, .poll] }.moves = .reset :: [.poll] := rfl

/-- The first and last address of IN and of OUT, and the addresses beside them. -/
theorem witness_HostAccessToWindowsWhileBusy :
    ((startState 1 [1, 2]).state = .busy ∧ (inState []).state ≠ .busy) ∧
      ((startState 1 [1, 2]).inBase.toNat = 0x100 ∧ (startState 1 [1, 2]).inLen.toNat = 2 ∧
        (startState 1 [1, 2]).outBase.toNat = 0x800 ∧ (startState 1 [1, 2]).outCap.toNat = 64) ∧
      ((startState 1 [1, 2]).hostMayTouch 0x100 || (startState 1 [1, 2]).hostMayTouch 0x101 ||
        (startState 1 [1, 2]).hostMayTouch 0x800 || (startState 1 [1, 2]).hostMayTouch 0x83F) = false ∧
      ((startState 1 [1, 2]).hostMayTouch 0xFF && (startState 1 [1, 2]).hostMayTouch 0x102 &&
        (startState 1 [1, 2]).hostMayTouch 0x7FF && (startState 1 [1, 2]).hostMayTouch 0x840) = true := by decide

theorem witness_PollAndIdleWait :
    { State.reset with moves := [.poll] }.moves = .poll :: [] ∧ State.reset.state ≠ .busy ∧ State.reset.moves = [] ∧
      { startState 1 [] with moves := [.poll] }.state = .busy := by decide

theorem witness_MemoryReadsWhatWasWritten :
    Memory.wf [(0x800, 0x41)] ∧ (2 ^ 32 - 1 < 2 ^ 32) ∧ Memory.wf (Memory.write [(0x800, 0x41)] 0x800 0) ∧
      Memory.write [(0x800, 0x41)] 0x800 0 = [] := by decide

theorem witness_RegistersHaveTheirWriters :
    (∃ t, exec .nop State.reset = .next t) ∧ Instr.nop ≠ .crcReset ∧ Instr.nop ≠ .crcUpdate ∧ Instr.nop ≠ .crcCheck ∧
      (∀ b, Instr.nop ≠ .huffBuild b) ∧ (∀ b, Instr.nop ≠ .huffDecode b) ∧ (∀ n, Instr.nop ≠ .bitsRead n) ∧
      formatOf .nop ≠ .defilterRow ∧ formatOf .nop ≠ .filterRow ∧ Instr.nop ≠ .defilter ∧ (∀ f, Instr.nop ≠ .filter f) ∧
      Instr.nop ≠ .filterFt5 ∧ Instr.nop ≠ .filterFt6 ∧ Instr.nop ≠ .filterFt7 := by
  refine ⟨⟨_, rfl⟩, ?_⟩
  decide

/-- Between commands, with a command accepted, and inside INFLATE (a symbol, a dynamic block's lengths), DEFILTER and FILTER. -/
theorem witness_inv_idle : State.reset.inv ∧ (inState [1]).inv :=
  ⟨⟨by decide, by decide +kernel, by decide, fun h => absurd h (by decide)⟩,
    by decide, by decide +kernel, by decide, fun h => absurd h (by decide)⟩

theorem witness_inv_started : (startState 1 [3, 0]).inv ∧ (startState 3 [3, 1]).inv ∧ (startState 0xA [3, 1]).inv :=
  ⟨⟨by decide, witness_inv_idle.1.2.1, by decide, fun _ h => nomatch h⟩,
    ⟨by decide, witness_inv_idle.1.2.1, by decide, fun _ h => nomatch h⟩,
    by decide, witness_inv_idle.1.2.1, by decide, fun _ h => nomatch h⟩

theorem witness_inv_symbols : p2Match.inv := by
  refine ⟨by decide, by decide +kernel, by decide, fun _ _ => ⟨fun _ => ?_, fun h => ?_, fun h => ?_⟩⟩
  · exact ⟨by decide, by decide, by decide, (nomatch ·), (nomatch ·), (nomatch ·), fun _ => by decide +kernel⟩
  · exact absurd h (by decide)
  · exact absurd h (by decide)

theorem witness_inv_dynamic : { clState 257 with clen := p3Clen }.inv := by
  refine ⟨by decide, by decide +kernel, by decide, fun _ _ => ⟨fun _ => ?_, fun h => ?_, fun h => ?_⟩⟩
  · exact ⟨by decide, by decide, by decide, (nomatch ·), (nomatch ·), fun _ => by decide +kernel, (nomatch ·)⟩
  · exact absurd h (by decide)
  · exact absurd h (by decide)

theorem witness_inv_rows : (rowState 2 1 (filteredRow 4) []).inv ∧ (rowState 3 1 (filteredRow 4) []).inv := by
  refine ⟨⟨by decide, by decide +kernel, by decide, fun _ _ => ⟨fun h => ?_, fun _ => by decide, fun h => ?_⟩⟩,
    by decide, by decide +kernel, by decide, fun _ _ => ⟨fun h => ?_, fun h => ?_, fun _ => by decide⟩⟩ <;> exact absurd h (by decide)

/-- A step that writes: P2's match; addresses beside OUT. -/
theorem witness_EngineWritesOnlyOut :
    p2Match.inv ∧ p2Match.state = .busy ∧ (∃ t, engineStep p2Match = .next t) ∧ 0x7FF < p2Match.outBase.toNat ∧
      p2Match.outBase.toNat + p2Match.outCap.toNat ≤ 0x840 :=
  ⟨witness_inv_symbols, rfl, ⟨_, rfl⟩, by decide, by decide⟩

theorem witness_EngineReadsOnlyWindows :
    ∃ u t, p2Match.inv ∧ p2Match.state = .busy ∧ p2Match ≠ u ∧ p2Match.sameInWindows u ∧ engineStep p2Match = .next t := by
  refine ⟨p2Match.memWrite 0 1, _, witness_inv_symbols, rfl, fun h => absurd (congrArg State.mem h) (by decide),
    ⟨rfl, ?_⟩, rfl⟩
  rintro a (⟨k, hk, rfl⟩ | ⟨k, hk, rfl⟩)
  · exact (by decide +kernel : ∀ k, k < 4 → (p2Match.memWrite 0 1).memRead (windowAddr p2Match.inBase k) =
      p2Match.memRead (windowAddr p2Match.inBase k)) k hk
  · exact (by decide +kernel : ∀ k, k < 64 → (p2Match.memWrite 0 1).memRead (windowAddr p2Match.outBase k) =
      p2Match.memRead (windowAddr p2Match.outBase k)) k hk

theorem witness_StepKeepsMemoryCanonical : Memory.wf p2Match.mem ∧ ∃ t, step p2Match = .next t := ⟨by decide, _, rfl⟩

theorem witness_StepKeepsStatusLegal :
    (p2Match.statusOk ∧ ∃ t, step p2Match = .next t) ∧
      { State.reset with state := .error, errDetail := 17, errClass := 7, errByte := 5, lastOp := 9 }.statusOk :=
  ⟨⟨by decide, _, rfl⟩, by decide⟩

/-- Both outcomes: a step, and a refused access to the first byte of IN. -/
theorem witness_RunsKeepInvariantAndNeverFault :
    (p2Match.inv ∧ ∃ t, step p2Match = .next t) ∧
      { p2Match with moves := [.readMem 0x100] }.inv ∧
      step { p2Match with moves := [.readMem 0x100] } = .refused .windowAccessWhileBusy :=
  ⟨⟨witness_inv_symbols, _, rfl⟩, witness_inv_symbols, rfl⟩

theorem witness_EveryCommandTerminates :
    ((startState 1 [3, 0]).inv ∧ (startState 1 [3, 0]).state = .busy ∧ (startState 1 [3, 0]).phase = .start ∧
        (startState 1 [3, 0]).moves = [] ∧ cmdOp (startState 1 [3, 0]).cmdl = 1) ∧
      (startState 3 [3, 1]).inv ∧ cmdOp (startState 3 [3, 1]).cmdl = 3 ∧ (startState 0xA [3, 1]).inv :=
  ⟨⟨witness_inv_started.1, rfl, rfl, rfl, rfl⟩, witness_inv_started.2.1, rfl,
    witness_inv_started.2.2⟩

end Sys2Proof.Machine
end

section
/-! SUPPORT. What every step keeps of the stored data, whatever the state: the canonical form of M, and the sizes of the
register files. -/

namespace Sys2Proof.Machine

/-! ## The stored data: M and the register files -/

/-- From `s` to `t`, M stays in its canonical form and the register files keep their sizes (R8, R40, R41). -/
def State.storesKept (s t : State) : Prop := (Memory.wf s.mem → Memory.wf t.mem) ∧ (s.shaped → t.shaped)

theorem State.storesKept.refl (s : State) : s.storesKept s := ⟨id, id⟩

theorem State.storesKept.trans {s t u : State} (h : s.storesKept t) (k : t.storesKept u) : s.storesKept u :=
  ⟨k.1 ∘ h.1, k.2 ∘ h.2⟩

theorem cursorOnly_storesKept {s t : State} (h : s.cursorOnly t) : s.storesKept t := by
  unfold State.cursorOnly at h; rw [h]; exact ⟨id, id⟩

theorem memWrite_storesKept (s : State) {a : Nat} (ha : a < 2 ^ 32) (v : Byte) : s.storesKept (s.memWrite a v) :=
  ⟨fun h => Memory.wf_write h ha v, id⟩

/-- Writing a table of the right shape keeps the sizes. -/
theorem setTable_storesKept (s : State) (b : BitVec 2) (lens : List Nat) : s.storesKept (s.setTable b (s.built b lens)) := by
  have shape : tableShaped (tableCap b) (s.built b lens) := build_shaped _ _ _
  revert shape
  unfold State.setTable tableCap
  split
  · exact fun k => ⟨id, fun ⟨ha, hc, _, hd, he⟩ => ⟨ha, hc, k, hd, he⟩⟩
  · exact fun k => ⟨id, fun ⟨ha, hc, hl, _, he⟩ => ⟨ha, hc, hl, k, he⟩⟩
  · exact fun k => ⟨id, fun ⟨ha, hc, hl, hd, _⟩ => ⟨ha, hc, hl, hd, k⟩⟩

theorem drawTbl_storesKept (b : BitVec 2) (s : State) : s.storesKept (drawTbl b s) := by
  unfold drawTbl
  split
  · exact ⟨id, fun ⟨ha, hc, _, hd, he⟩ => ⟨ha, hc, drawTable_shaped _ _ _ _ _, hd, he⟩⟩
  · exact ⟨id, fun ⟨ha, hc, hl, _, he⟩ => ⟨ha, hc, hl, drawTable_shaped _ _ _ _ _, he⟩⟩
  · exact ⟨id, fun ⟨ha, hc, hl, hd, _⟩ => ⟨ha, hc, hl, hd, drawTable_shaped _ _ _ _ _⟩⟩
  · exact State.storesKept.refl s

theorem drawLens_storesKept (s : State) : s.storesKept (drawLens s) :=
  ⟨id, fun ⟨_, _, tables⟩ => ⟨by simp, by simp, tables⟩⟩

theorem drawDbd_storesKept (s : State) : s.storesKept (drawDbd s) :=
  State.storesKept.trans ⟨id, id⟩ (drawLens_storesKept _)

theorem drawOut_storesKept (s : State) : s.storesKept (drawOut s) := ⟨drawBytes_wf, id⟩

theorem drawAfterError_storesKept (op : Op) (s : State) : s.storesKept (drawAfterError op s) := by
  cases op with
  | inflate =>
    have cursor : s.storesKept (drawCursor s) := ⟨id, id⟩
    have dbd := (cursor.trans (drawOut_storesKept _)).trans (drawDbd_storesKept _)
    exact ((dbd.trans (drawTbl_storesKept 2 _)).trans (drawTbl_storesKept 1 _)).trans (drawTbl_storesKept 0 _)
  | defilter => exact State.storesKept.trans (drawOut_storesKept s) ⟨id, id⟩
  | filter => exact State.storesKept.trans (drawOut_storesKept s) ⟨id, id⟩
  | huffBuild tbl => exact State.storesKept.trans (t := drawResult s) ⟨id, id⟩ (drawTbl_storesKept tbl _)
  | nop | crcReset | crcUpdate | crcCheck | huffDecode | bitsRead | bitsAlign | bitsReset | reserved | clear => exact ⟨id, id⟩

theorem raise_storesKept (op : Op) (d : ErrDetail) (p : ErrPos) (s : State) : s.storesKept (raise op d p s) :=
  drawAfterError_storesKept op s

theorem emit_storesKept {v : Byte} {s t : State} (h : emit v s = .ok t) : s.storesKept t := by
  unfold emit at h
  split at h
  · cases h
  · cases h; exact memWrite_storesKept s (windowAddr_lt _ _) v

theorem copy_storesKept {len dist : Nat} {s t : State} (h : copy len dist s = .ok t) : s.storesKept t := by
  rcases copy_cases len dist s with e | ⟨u, e, f, w⟩
  · rw [e] at h; cases h
  · rw [e] at h; injection h with h; subst h; exact ⟨w, fun k => by rw [f]; exact k⟩

theorem orRaise_map_storesKept {s t : State} {r : Except ErrDetail State} {f : State → State}
    (h : orRaise s (r.map f) = .next t) (hr : ∀ u, r = .ok u → s.storesKept (f u)) : s.storesKept t := by
  cases r with
  | ok u => cases h; exact hr u rfl
  | error d => cases h; exact raise_storesKept _ _ _ _

theorem endOfBlock_storesKept (s : State) : s.storesKept (endOfBlock s) := by
  unfold endOfBlock; split <;> exact ⟨id, id⟩

theorem storedByteDone_storesKept (s : State) : s.storesKept (storedByteDone s) := by
  unfold storedByteDone
  split
  · exact (endOfBlock_storesKept { s with storedRem := s.storedRem - 1 } :)
  · exact ⟨id, id⟩

theorem lengthsDone_storesKept (s : State) : s.storesKept (lengthsDone s) := by
  unfold lengthsDone
  split
  · exact ⟨id, fun ⟨ha, hc, _, _, he⟩ => ⟨ha, hc, build_shaped _ _ _, build_shaped _ _ _, he⟩⟩
  · exact State.storesKept.refl s

theorem rowsStart_storesKept (s : State) : s.storesKept (rowsStart s) := by
  unfold rowsStart; split <;> exact ⟨id, id⟩

theorem rowDone_storesKept {n : Nat} {m : List Host.Cell} {s : State} (h : Memory.wf s.mem → Memory.wf m) :
    s.storesKept (rowDone n m s) := by
  unfold rowDone; split <;> exact ⟨h, id⟩

theorem scatterLengths_length (os : List Nat) (ls cl : List (BitVec 3)) : (scatterLengths os ls cl).length = cl.length := by
  fun_induction scatterLengths os ls cl with
  | case1 o os l ls cl ih => rw [ih, List.length_set]
  | case2 => rfl

theorem runLengths_storesKept {v : BitVec 4} {r : Nat} {s t : State} (h : runLengths v r s = .next t) : s.storesKept t := by
  unfold runLengths at h
  split at h
  · cases h; exact raise_storesKept _ _ _ _
  · cases h
    refine State.storesKept.trans ?_ (lengthsDone_storesKept _)
    exact ⟨id, fun ⟨ha, hc⟩ => ⟨(fillLens_length _ _ _ _).trans ha, hc⟩⟩

theorem distancePart_storesKept {d e : Nat} {s t : State} (h : distancePart d e s = .next t) : s.storesKept t := by
  unfold distancePart at h
  split at h
  · cases h; exact raise_storesKept _ _ _ _
  · exact orRaise_map_storesKept h fun u hu => (copy_storesKept hu :)

theorem defilterRow_storesKept {pred : Byte → Byte → Byte → Byte} {s t : State} (h : defilterRow pred s = .next t) :
    s.storesKept t := by
  cases h; exact rowDone_storesKept defilterBytes_wf

theorem filterRow_storesKept {type : Byte} {pred : Byte → Byte → Byte → Byte} {s t : State}
    (h : filterRow type pred s = .next t) : s.storesKept t := by
  cases h; exact rowDone_storesKept fun hw => filterBytes_wf (Memory.wf_write hw (windowAddr_lt _ _) _)

/-- Every instruction, in every state, keeps the canonical form of M and the sizes of the register files. -/
theorem exec_storesKept {i : Instr} {s t : State} (h : exec i s = .next t) : s.storesKept t := by
  cases i
  case storedByte b => exact orRaise_map_storesKept h fun u hu => (emit_storesKept hu).trans (storedByteDone_storesKept u)
  case lit b => exact orRaise_map_storesKept h fun u hu => (emit_storesKept hu :)
  case blkFixed f =>
    cases h
    exact ⟨id, fun ⟨ha, hc, _, _, he⟩ => ⟨ha, hc, build_shaped _ _ _, build_shaped _ _ _, he⟩⟩
  case blkDynamic f => cases h; exact (drawLens_storesKept (headerDone f 2 s) :)
  case dynClLengths ls =>
    cases h
    exact ⟨id, fun ⟨ha, _, hl, hd, _⟩ =>
      ⟨ha, (scatterLengths_length _ _ _).trans (by simp), hl, hd, build_shaped _ _ _⟩⟩
  case clLen l =>
    cases h
    refine State.storesKept.trans ?_ (lengthsDone_storesKept _)
    exact ⟨id, fun ⟨ha, hc⟩ => ⟨(List.length_set ..).trans ha, hc⟩⟩
  case storedHeader len nlen =>
    simp only [exec, execStoredHeader] at h
    repeat' split at h
    · cases h; exact raise_storesKept _ _ _ _
    · cases h; exact (endOfBlock_storesKept { s with storedRem := len } :)
    · cases h; exact ⟨id, id⟩
  case clRepeatPrev e =>
    simp only [exec, execClRepeatPrev] at h
    split at h
    · cases h; exact raise_storesKept _ _ _ _
    · exact runLengths_storesKept h
  case defilter =>
    simp only [exec, execDefilter] at h
    repeat' split at h
    · cases h; exact raise_storesKept _ _ _ _
    · cases h; exact rowsStart_storesKept s
    · cases h; exact raise_storesKept _ _ _ _
  case filter ft =>
    simp only [exec, execFilter] at h
    repeat' split at h
    · cases h; exact raise_storesKept _ _ _ _
    · cases h; exact raise_storesKept _ _ _ _
    · cases h; exact (rowsStart_storesKept { s with sfbFt := ft } :)
    · cases h; exact raise_storesKept _ _ _ _
  case huffBuild tbl =>
    simp only [exec, execHuffBuild] at h
    split at h
    · cases h; exact raise_storesKept _ _ _ _
    · cases h; exact (setTable_storesKept s tbl s.buildLengths :)
  case huffDecode tbl =>
    simp only [exec, execHuffDecode] at h
    repeat' split at h
    · rename_i e; have k := cursorOnly_storesKept (decodeSym_cursorOnly e); cases h; exact k
    all_goals cases h; exact raise_storesKept _ _ _ _
  case bitsRead n =>
    simp only [exec, execBitsRead] at h
    repeat' split at h
    · rename_i e; have k := cursorOnly_storesKept (readBits_cursorOnly e); cases h; exact k
    all_goals cases h; exact raise_storesKept _ _ _ _
  case dynHeader | blkStored | inflate | crcUpdate | crcCheck =>
    simp only [exec, execDynHeader, execBlkStored, execInflate, execCrcUpdate, execCrcCheck] at h
    split at h <;> cases h <;> first | exact raise_storesKept _ _ _ _ | exact ⟨id, id⟩
  case eob => cases h; exact endOfBlock_storesKept s
  all_goals first
    | exact distancePart_storesKept h
    | exact runLengths_storesKept h
    | exact defilterRow_storesKept h
    | exact filterRow_storesKept h
    | (cases h; exact raise_storesKept _ _ _ _)
    | (cases h; exact ⟨id, id⟩)

/-! ## The moves -/

theorem runElement_storesKept {elem : Elem} {s t : State} (h : runElement elem s = .next t) : s.storesKept t := by
  unfold runElement at h
  split at h
  · rename_i e; exact State.storesKept.trans (cursorOnly_storesKept (decode_cursorOnly e)) (exec_storesKept h)
  · cases h; exact raise_storesKept _ _ _ _
  · cases h; exact raise_storesKept _ _ _ _
  · cases h

theorem continueElement_storesKept {s t : State} (h : continueElement s = .next t) : s.storesKept t := by
  unfold continueElement at h
  split at h
  · cases h; exact State.storesKept.refl s
  · exact exec_storesKept h
  · exact runElement_storesKept h

theorem inflateStep_storesKept {s t : State} (h : inflateStep s = .next t) : s.storesKept t := by
  unfold inflateStep at h
  split at h
  · split at h
    · cases h
    · obtain ⟨u, hu, hc⟩ := andThen_eq_next.1 h
      exact State.storesKept.trans (s := s) (t := markStart s) ⟨id, id⟩
        (State.storesKept.trans (runElement_storesKept hu) (continueElement_storesKept hc))
  · exact continueElement_storesKept h
  · exact continueElement_storesKept h

theorem engineStep_storesKept {s t : State} (h : engineStep s = .next t) : s.storesKept t := by
  unfold engineStep at h
  split at h
  · exact (exec_storesKept h :)
  · split at h
    · exact inflateStep_storesKept h
    · exact exec_storesKept h
    · exact exec_storesKept h
    · cases h

theorem engineTurn_storesKept {s t : State} (h : engineTurn s = .next t) : s.storesKept t := by
  unfold engineTurn at h
  split at h
  · exact engineStep_storesKept h
  · cases h; exact State.storesKept.refl s

theorem operandWrite_storesKept (index : BitVec 6) (v : Word) (s : State) : s.storesKept (operandWrite index v s) := by
  unfold operandWrite; split <;> exact ⟨id, id⟩

theorem commandWrite_storesKept {w : Word} {s t : State} (h : commandWrite w s = .next t) : s.storesKept t := by
  unfold commandWrite at h
  split at h
  · exact exec_storesKept h
  · split at h <;> cases h <;> exact ⟨id, id⟩

theorem writeRegister_storesKept {index : BitVec 6} {v : Word} {s t : State} (h : writeRegister index v s = .next t) :
    s.storesKept t := by
  unfold writeRegister at h
  split at h
  · cases h; exact State.storesKept.refl s
  · split at h
    · exact commandWrite_storesKept h
    · cases h; exact operandWrite_storesKept _ _ _

theorem resetBlock_storesKept (s : State) : s.storesKept (resetBlock s) :=
  ⟨id, fun _ => ⟨by simp [resetBlock], by simp [resetBlock], build_shaped _ _ _, build_shaped _ _ _, build_shaped _ _ _⟩⟩

theorem moveStep_storesKept {m : Move} {s t : State} (h : moveStep m s = .next t) : s.storesKept t := by
  cases m with
  | writeReg index v => exact writeRegister_storesKept h
  | readReg index => cases h; exact ⟨id, id⟩
  | writeMem a v =>
    simp only [moveStep] at h
    split at h
    · cases h; exact memWrite_storesKept s a.isLt v
    · cases h
  | readMem a =>
    simp only [moveStep] at h
    split at h
    · cases h; exact ⟨id, id⟩
    · cases h
  | poll =>
    simp only [moveStep] at h
    split at h
    · exact (engineStep_storesKept h :)
    · cases h; exact ⟨id, id⟩
  | engine => exact engineTurn_storesKept h
  | reset => cases h; exact resetBlock_storesKept s

/-- Every step, in every state, keeps the canonical form of M and the sizes of the register files. -/
theorem step_storesKept {s t : State} (h : step s = .next t) : s.storesKept t := by
  obtain ⟨u, hu, rfl⟩ := step_eq_next.1 h
  unfold turn at hu
  split at hu
  · exact (engineTurn_storesKept hu :)
  · exact (moveStep_storesKept hu :)

/-- Settles O56: the canonical form is half of what every step keeps of the stored data. -/
theorem stepKeepsMemoryCanonical : Obligations.StepKeepsMemoryCanonical :=
  fun _ _ hw h => (step_storesKept h).1 hw

end Sys2Proof.Machine
end

section
/-! SUPPORT. ENGINE's turn, one equation a case: which instruction a step runs, and what a fetch that fails raises. -/

namespace Sys2Proof.Machine

/-! ## Fetching and running an element -/

theorem runElement_ok {elem : Elem} {s t : State} {i : Instr} (h : decode cursorSource elem s.ctx s = .ok (i, t)) :
    runElement elem s = exec i t := by rw [runElement, h]

theorem runElement_truncated {elem : Elem} {s : State} (h : decode cursorSource elem s.ctx s = .error .truncated) :
    runElement elem s = .next (raiseInflate .truncated s) := by rw [runElement, h]

theorem runElement_huffNoMatch {elem : Elem} {s : State} (h : decode cursorSource elem s.ctx s = .error .huffNoMatch) :
    runElement elem s = .next (raiseInflate .huffNoMatch s) := by rw [runElement, h]

theorem continueElement_none {s : State} (h : s.pending = .none) : continueElement s = .next s := by
  rw [continueElement, h]

theorem continueElement_blockType {s : State} (h : s.pending = .blockType) :
    continueElement s = exec (decodeBlockType s.bfinal s.btype) s := by rw [continueElement, h]

theorem continueElement_distance {s : State} {len : Nat} (h : s.pending = .distance len) :
    continueElement s = runElement .distance s := by rw [continueElement, h]

theorem continueElement_raiseInflate (d : ErrDetail) (s : State) :
    continueElement (raiseInflate d s) = .next (raiseInflate d s) := continueElement_none rfl

/-! ## The step of a running command -/

theorem inflateStep_element {s : State} {elem : Elem} (hp : s.pending = .none) (he : elemOf s.st = some elem) :
    inflateStep s = andThen (runElement elem (markStart s)) continueElement := by simp only [inflateStep, hp, he]

theorem inflateStep_distance {s : State} {len : Nat} (hp : s.pending = .distance len) :
    inflateStep s = runElement .distance s := by simp only [inflateStep, hp, continueElement_distance hp]

theorem engineStep_start {s : State} (h : s.phase = .start) :
    engineStep s = exec (decodeCommand s.cmdl) { s with phase := .run } := by rw [engineStep, h]; rfl

theorem engineStep_inflate {s : State} (h : s.phase = .run) (ho : cmdOp s.cmdl = 1) : engineStep s = inflateStep s := by
  rw [engineStep, h, ho]; rfl

theorem engineStep_defilter {s : State} (h : s.phase = .run) (ho : cmdOp s.cmdl = 2) :
    engineStep s = exec (decodeFilterType s.filterByte) s := by rw [engineStep, h, ho]; rfl

theorem engineStep_filter {s : State} (h : s.phase = .run) (ho : cmdOp s.cmdl = 3) :
    engineStep s = exec (decodeFilterRow s.sfbFt) s := by rw [engineStep, h, ho]; rfl

/-- With no move scheduled, a step of a BUSY block is ENGINE's step, counted. -/
theorem step_busy {s : State} (hb : s.state = .busy) (hm : s.moves = []) :
    step s = andThen (engineStep s) fun u => .next (tickOn u) := by rw [step, turn, hm, engineTurn, if_pos hb]

/-- Settles O11: the turn's equations, case by case. -/
theorem stepRunsDecodedInstruction : Obligations.StepRunsDecodedInstruction := by
  refine ⟨fun s hb hm => ?_, fun u => ⟨continueElement_none, continueElement_blockType, fun len hp => ?_⟩⟩
  · rw [step_busy hb hm]
    refine ⟨fun elem hr ho hp he => ?_, fun i t len hr ho hp hd => ?_, fun hr ho => ?_, fun hr ho => ?_, fun hs => ?_⟩
    · rw [engineStep_inflate hr ho, inflateStep_element hp he]
      refine ⟨fun i t hd => ?_, fun hd => ?_, fun hd => ?_⟩
      · rw [runElement_ok hd]
      · rw [runElement_truncated hd, andThen_next, continueElement_raiseInflate, andThen_next]
      · rw [runElement_huffNoMatch hd, andThen_next, continueElement_raiseInflate, andThen_next]
    · rw [engineStep_inflate hr ho, inflateStep_distance hp, runElement_ok hd]
    · rw [engineStep_defilter hr ho]
    · rw [engineStep_filter hr ho]
    · rw [engineStep_start hs]
  · rw [continueElement_distance hp]
    exact ⟨fun i t hd => runElement_ok hd, runElement_truncated, runElement_huffNoMatch⟩

end Sys2Proof.Machine
end

section
/-! SUPPORT. Reading from the stream keeps the cursor in the stream (R100, R101, R104). -/

namespace Sys2Proof.Machine

/-! ## Bit strings -/

theorem testBit_bitsValue (l : List Bool) (b : Nat) : (bitsValue l).testBit b = l.getD b false := by
  induction l generalizing b with
  | nil => simp [bitsValue]
  | cons x xs ih =>
    cases b with
    | zero => cases x <;> simp [bitsValue, Nat.testBit_zero, Nat.add_mod]
    | succ b =>
      have half : (x.toNat + 2 * bitsValue xs) / 2 = bitsValue xs := by
        cases x
        · simp
        · simp; omega
      rw [bitsValue, Nat.testBit_succ, half, ih, List.getD_cons_succ]

theorem getD_streamBits (s : State) (p n b : Nat) :
    (s.streamBits p n).getD b false = (decide (b < n) && s.streamBit (p + b)) := by
  by_cases h : b < n <;> simp [State.streamBits, List.getD_eq_getElem?_getD, h]

/-- A buffer holds `n` stream bits from `p` on exactly when each of its bits is that stream bit, and 0 from `n` on. -/
theorem eq_bitsValue_streamBits (s : State) (buf : BitVec 64) (p n : Nat) :
    buf.toNat = bitsValue (s.streamBits p n) ↔
      ∀ b, buf.getLsbD b = (decide (b < n) && s.streamBit (p + b)) := by
  simp only [← getD_streamBits, ← testBit_bitsValue, ← BitVec.testBit_toNat]
  exact ⟨fun h b => by rw [h], Nat.eq_of_testBit_eq⟩

/-! ## The cursor stands in the stream -/

/-- The cursor stands in the stream, however many bits it buffers (R100 without its bound on BIT_CNT). -/
def State.cursorIn (s : State) : Prop :=
  s.bitCnt.toNat ≤ 8 * s.inPos.toNat ∧ s.inPos.toNat ≤ s.inLen.toNat ∧
    ∀ b, s.bitBuf.getLsbD b = (decide (b < s.bitCnt.toNat) && s.streamBit (s.bp + b))

theorem State.cursorOk_iff (s : State) : s.cursorOk ↔ s.bitCnt.toNat ≤ 7 ∧ s.cursorIn := by
  rw [State.cursorOk, State.cursorIn, eq_bitsValue_streamBits]

theorem fetchByte_cursorIn {s : State} (h : s.cursorIn) (hc : s.bitCnt.toNat < 32) (hp : s.inPos.toNat < s.inLen.toNat) :
    (fetchByte s).cursorIn ∧ (fetchByte s).bp = s.bp := by
  obtain ⟨cnt, -, bits⟩ := h
  obtain ⟨-, c, p⟩ := fetchByte_cursorBits hc hp
  have pos : (fetchByte s).bp = s.bp := by unfold State.bp; omega
  refine ⟨⟨by omega, by rw [p]; exact hp, fun b => ?_⟩, pos⟩
  rw [pos, c]
  show (s.bitBuf ||| _).getLsbD b = (_ && s.streamBit (s.bp + b))
  rw [BitVec.getLsbD_or, bits, BitVec.getLsbD_shiftLeft, BitVec.getLsbD_setWidth]
  have hbp : s.bp = 8 * s.inPos.toNat - s.bitCnt.toNat := rfl
  by_cases h1 : b < s.bitCnt.toNat
  · simp [h1, show b < s.bitCnt.toNat + 8 by omega]
  · by_cases h2 : b < s.bitCnt.toNat + 8
    · have byte : (s.bp + b) / 8 = s.inPos.toNat := by omega
      have bit : (s.bp + b) % 8 = b - s.bitCnt.toNat := by omega
      simp [h1, h2, State.streamBit, byte, bit, show b < 64 by omega, show b - s.bitCnt.toNat < 64 by omega]
    · have none : (s.memRead (windowAddr s.inBase s.inPos.toNat)).getLsbD (b - s.bitCnt.toNat) = false :=
        BitVec.getLsbD_of_ge _ _ (by omega)
      simp [h1, h2, none]

theorem refill_cursorIn {fuel n : Nat} {s t : State} (hn : n ≤ 32) (h : s.cursorIn) (e : refill fuel n s = some t) :
    t.cursorIn ∧ t.bp = s.bp ∧ n ≤ t.bitCnt.toNat ∧ t.bitCnt.toNat ≤ max s.bitCnt.toNat (n + 7) := by
  induction fuel generalizing s with
  | zero =>
    unfold refill at e
    split at e
    · cases e
    · cases e; exact ⟨h, rfl, by omega, by omega⟩
  | succ fuel ih =>
    unfold refill at e
    split at e
    · split at e
      · cases e
      · have hp : s.inPos.toNat < s.inLen.toNat := by omega
        obtain ⟨inside, pos⟩ := fetchByte_cursorIn h (by omega) hp
        obtain ⟨-, cnt, -⟩ := fetchByte_cursorBits (s := s) (by omega) hp
        obtain ⟨ht, hbp, enough, most⟩ := ih inside e
        exact ⟨ht, hbp.trans pos, enough, by omega⟩
    · cases e; exact ⟨h, rfl, by omega, by omega⟩

theorem takeBits_cursorIn {n : Nat} {s : State} (h : s.cursorIn) (hn : n ≤ s.bitCnt.toNat) :
    (takeBits n s).2.cursorIn ∧ (takeBits n s).2.bp = s.bp + n := by
  obtain ⟨cnt, pos, bits⟩ := h
  obtain ⟨-, -, c⟩ := takeBits_cursorBits hn
  have bp : (takeBits n s).2.bp = s.bp + n := by
    show 8 * s.inPos.toNat - (takeBits n s).2.bitCnt.toNat = 8 * s.inPos.toNat - s.bitCnt.toNat + n
    omega
  refine ⟨⟨?_, pos, fun b => ?_⟩, bp⟩
  · show (takeBits n s).2.bitCnt.toNat ≤ 8 * s.inPos.toNat
    omega
  · rw [bp]
    show (s.bitBuf >>> n).getLsbD b = (_ && s.streamBit (s.bp + n + b))
    rw [BitVec.getLsbD_ushiftRight, bits, Nat.add_assoc]
    congr 2
    exact propext (by omega)

/-- ReadBits(n) keeps the cursor in the stream and moves bp on by `n` (R101, R104). -/
theorem readBits_cursorOk {n v : Nat} {s t : State} (hn : 1 ≤ n) (hn' : n ≤ 32) (h : s.cursorOk)
    (e : readBits n s = some (v, t)) : t.cursorOk ∧ t.bp = s.bp + n := by
  obtain ⟨few, inside⟩ := s.cursorOk_iff.1 h
  unfold readBits at e
  cases r : refill n n s with
  | none => rw [r] at e; cases e
  | some u =>
    rw [r] at e
    obtain ⟨hu, bp, enough, most⟩ := refill_cursorIn hn' inside r
    obtain ⟨ht, step⟩ := takeBits_cursorIn hu enough
    obtain ⟨-, -, c⟩ := takeBits_cursorBits enough
    obtain rfl : (takeBits n u).2 = t := congrArg Prod.snd (Option.some.inj e)
    exact ⟨(State.cursorOk_iff _).2 ⟨by omega, ht⟩, by rw [step, bp]⟩

/-- AlignToByte keeps the cursor in the stream and moves bp to a byte boundary (R102). -/
theorem alignToByte_cursorAligned {s : State} (h : s.cursorOk) : (alignToByte s).cursorOk ∧ (alignToByte s).bp % 8 = 0 := by
  obtain ⟨-, -, pos, -⟩ := h
  exact ⟨⟨by simp, by simp, pos, rfl⟩, by simp [State.bp]⟩

/-- ResetCursor puts the cursor at the start of the stream (R103). -/
theorem resetCursor_cursorOk (s : State) : (resetCursor s).cursorOk := ⟨by simp, by simp, by simp, rfl⟩

/-- At a byte boundary nothing is buffered (R100). -/
theorem bitCnt_eq_zero_of_aligned {s : State} (h : s.cursorOk) (hb : s.bp % 8 = 0) : s.bitCnt = 0 := by
  obtain ⟨few, cnt, -⟩ := h
  apply BitVec.eq_of_toNat_eq
  unfold State.bp at hb
  show s.bitCnt.toNat = 0
  omega

/-! ## Fetching an instruction -/

/-- Reading a field of `n` bits keeps `P`. -/
def ReadKeeps (n : Nat) (P : State → Prop) : Prop := ∀ {v s t}, P s → readBits n s = some (v, t) → P t

/-- Reading a field of any width that the encodings have keeps `P` (R89, R101). -/
def KeptByReads (P : State → Prop) : Prop := ∀ n, 1 ≤ n → n ≤ 32 → ReadKeeps n P

theorem cursorOk_keptByReads : KeptByReads State.cursorOk := fun _ hn hn' _ _ _ h e => (readBits_cursorOk hn hn' h e).1

/-- The cursor stands in the stream, at a byte boundary (R102, R140, R141). -/
abbrev State.cursorAligned (s : State) : Prop := s.cursorOk ∧ s.bp % 8 = 0

/-- Whole bytes read from a byte boundary end at one. -/
theorem cursorAligned_readKeeps {n : Nat} (hn : 1 ≤ n) (hn' : n ≤ 32) (h8 : n % 8 = 0) :
    ReadKeeps n State.cursorAligned := by
  intro v s t ⟨h, hb⟩ e
  obtain ⟨ht, bp⟩ := readBits_cursorOk hn hn' h e
  exact ⟨ht, by omega⟩

theorem getD_le {l : List Nat} {b : Nat} (h : ∀ v ∈ l, v ≤ b) (i : Nat) : l.getD i 0 ≤ b := by
  rw [List.getD_eq_getElem?_getD]
  cases e : l[i]? with
  | none => exact Nat.zero_le b
  | some v => exact h v (List.mem_of_getElem? e)

theorem lext_le (sym : Nat) : lext sym ≤ 32 := getD_le (by decide) _

theorem dext_le (d : Nat) : dext d ≤ 32 := getD_le (by decide) _

/-- A read that leads to a value leads to one, and to a state, as `Q` says; else it fails with an error that INFLATE raises
(R101, R114). -/
def Fetches {α : Type} (r : Except DecodeError (α × State)) (Q : α → State → Prop) : Prop :=
  r ≠ .error .noSuchSymbol ∧ ∀ a t, r = .ok (a, t) → Q a t

section
variable {α : Type} {r : Except DecodeError (α × State)} {Q : α → State → Prop}

theorem Fetches.ok {a : α} {t : State} (h : Q a t) : Fetches (.ok (a, t)) Q :=
  ⟨nofun, fun _ _ e => by cases e; exact h⟩

theorem Fetches.error {d : DecodeError} (h : d ≠ .noSuchSymbol) : Fetches (.error d) Q :=
  ⟨fun e => h (by cases e; rfl), fun _ _ e => by cases e⟩

theorem Fetches.of_ok (h : Fetches r Q) {a : α} {t : State} (e : r = .ok (a, t)) : Q a t := h.2 a t e

/-- The error of a part is an error of the whole. -/
theorem Fetches.of_error (h : Fetches r Q) {d : DecodeError} (e : r = .error d) {β : Type} {R : β → State → Prop} :
    Fetches (.error d) R := Fetches.error fun k => h.1 (k ▸ e)

theorem Fetches.mono {R : α → State → Prop} (h : Fetches r Q) (hq : ∀ a t, Q a t → R a t) : Fetches r R :=
  ⟨h.1, fun a t e => hq a t (h.2 a t e)⟩

theorem Fetches.map {β : Type} {R : β → State → Prop} {f : α × State → β} (h : Fetches r Q)
    (hf : ∀ a t, Q a t → R (f (a, t)) t) : Fetches (r.map fun p => (f p, p.2)) R := by
  cases r with
  | error d => exact h.of_error rfl
  | ok p => exact Fetches.ok (hf p.1 p.2 (h.of_ok rfl))

end

section
variable {P : State → Prop}

theorem readField_fetches {n : Nat} {s : State} (hn : ReadKeeps n P) (h : P s) :
    Fetches (readField cursorSource n s) fun _ t => P t := by
  unfold readField
  split
  · exact Fetches.error nofun
  · rename_i e; exact Fetches.ok (hn h e)

theorem decode_storedByte_fetches {c : Ctx} {s : State} (h8 : ReadKeeps 8 P) (h : P s) :
    Fetches (decode cursorSource .storedByte c s) fun i t => P t ∧ ∃ b, i = .storedByte b :=
  (readField_fetches h8 h).map fun a _ ht => ⟨ht, a, rfl⟩

theorem decode_storedHeader_fetches {c : Ctx} {s : State} (h16 : ReadKeeps 16 P) (h : P (alignToByte s)) :
    Fetches (decode cursorSource .storedHeader c s) fun i t => P t ∧ ∃ len nlen, i = .storedHeader len nlen := by
  have len := readField_fetches h16 h
  simp only [decode, decodeStoredHeader]
  split
  · rename_i e; exact len.of_error e
  · rename_i e
    have nlen := readField_fetches h16 (len.of_ok e)
    split
    · rename_i e; exact nlen.of_error e
    · rename_i e; exact Fetches.ok ⟨nlen.of_ok e, _, _, rfl⟩

variable (hP : KeptByReads P)
include hP

theorem readExtra_fetches {n : Nat} {s : State} (hn : n ≤ 32) (h : P s) :
    Fetches (readExtra cursorSource n s) fun _ t => P t := by
  unfold readExtra
  split
  · exact Fetches.ok h
  · split
    · exact Fetches.error nofun
    · rename_i e; exact Fetches.ok (hP n (by omega) hn h e)

theorem readLengths_fetches {n : Nat} {s : State} (h : P s) : Fetches (readLengths cursorSource n s) fun _ t => P t := by
  induction n generalizing s with
  | zero => exact Fetches.ok h
  | succ n ih =>
    have first := readField_fetches (hP 3 (by omega) (by omega)) h
    unfold readLengths
    split
    · rename_i e; exact first.of_error e
    · rename_i e
      have rest := ih (first.of_ok e)
      split
      · rename_i e; exact rest.of_error e
      · rename_i e; exact Fetches.ok (rest.of_ok e)

theorem walk_fetches {T : Table} {draw fuel L code first index : Nat} {s : State} (h : P s) :
    Fetches (walk cursorSource T draw fuel L code first index s) fun _ t => P t := by
  induction fuel generalizing s L code first index with
  | zero => exact Fetches.error nofun
  | succ n ih =>
    unfold walk
    split
    · exact Fetches.error nofun
    · rename_i e
      have next := hP 1 (by omega) (by omega) h e
      split
      · exact Fetches.ok next
      · exact ih next

theorem decodeSym_fetches {T : Table} {draw : Nat} {s : State} (h : P s) :
    Fetches (decodeSym cursorSource T draw s) fun _ t => P t := walk_fetches hP h

theorem readHeader_fetches {s : State} (h : P s) : Fetches (readHeader cursorSource s) fun _ t => P t := by
  have f := readField_fetches (hP 1 (by omega) (by omega)) h
  unfold readHeader
  split
  · rename_i e; exact f.of_error e
  · rename_i e
    have t := readField_fetches (hP 2 (by omega) (by omega)) (f.of_ok e)
    split
    · rename_i e; exact t.of_error e
    · rename_i e; exact Fetches.ok (t.of_ok e)

/-- Fetching a block header gives a block header. -/
theorem decode_blockHeader_fetches {c : Ctx} {s : State} (h : P s) :
    Fetches (decode cursorSource .blockHeader c s) fun i t => P t ∧ ∃ f b, i = .blockHeader f b :=
  (readHeader_fetches hP h).map fun a _ ht => ⟨ht, a.1, a.2, rfl⟩

theorem decode_dynClLengths_fetches {c : Ctx} {s : State} (h : P s) :
    Fetches (decode cursorSource .dynClLengths c s) fun i t => P t ∧ ∃ ls, i = .dynClLengths ls :=
  (readLengths_fetches hP h).map fun a _ ht => ⟨ht, a, rfl⟩

theorem decode_dynHeader_fetches {c : Ctx} {s : State} (h : P s) :
    Fetches (decode cursorSource .dynHeader c s) fun i t => P t ∧ ∃ hlit hdist hclen, i = .dynHeader hlit hdist hclen := by
  have hlit := readField_fetches (hP 5 (by omega) (by omega)) h
  simp only [decode, decodeDynHeader]
  split
  · rename_i e; exact hlit.of_error e
  · rename_i e
    have hdist := readField_fetches (hP 5 (by omega) (by omega)) (hlit.of_ok e)
    split
    · rename_i e; exact hdist.of_error e
    · rename_i e
      have hclen := readField_fetches (hP 4 (by omega) (by omega)) (hdist.of_ok e)
      split
      · rename_i e; exact hclen.of_error e
      · rename_i e; exact Fetches.ok ⟨hclen.of_ok e, _, _, _, rfl⟩

theorem decode_litLen_fetches {c : Ctx} {s : State} (h : P s) :
    Fetches (decode cursorSource .litLen c s) fun i t => P t ∧ ∃ sym e, i = litLenInstr sym e := by
  have sym := decodeSym_fetches hP (T := c.lit) (draw := c.draw) h
  simp only [decode, decodeLitLen]
  split
  · rename_i e; exact sym.of_error e
  · rename_i v _ e
    have extra := readExtra_fetches hP (lext_le v.toNat) (sym.of_ok e)
    split
    · rename_i e; exact extra.of_error e
    · rename_i x _ e; exact Fetches.ok ⟨extra.of_ok e, v.toNat, x, rfl⟩

theorem decode_distance_fetches {c : Ctx} {s : State} (h : P s) :
    Fetches (decode cursorSource .distance c s) fun i t => P t ∧ ∃ d e, i = distInstr d e := by
  have sym := decodeSym_fetches hP (T := c.dist) (draw := c.draw) h
  simp only [decode, decodeDistance]
  split
  · rename_i e; exact sym.of_error e
  · rename_i v _ e
    have extra := readExtra_fetches hP (dext_le v.toNat) (sym.of_ok e)
    split
    · rename_i e; exact extra.of_error e
    · rename_i x _ e; exact Fetches.ok ⟨extra.of_ok e, v.toNat, x, rfl⟩

end

end Sys2Proof.Machine
end

section
/-! SUPPORT. What Build writes where a walk reads (R110, R114, R115): a walk over a table built over `n` symbols gives a symbol
below `n`. -/

namespace Sys2Proof.Machine

/-! ## The counts -/

theorem toNat_add_one_le (x : BitVec 16) : (x + 1).toNat ≤ x.toNat + 1 := by
  rw [BitVec.toNat_add]; exact Nat.mod_le _ _

theorem getD_set_ne {α : Type} (l : List α) {i j : Nat} (h : i ≠ j) (v d : α) : (l.set i v).getD j d = l.getD j d := by
  simp only [List.getD_eq_getElem?_getD, List.getElem?_set_ne h]

theorem getD_set_self {α : Type} (l : List α) {i : Nat} (h : i < l.length) (v d : α) : (l.set i v).getD i d = v := by
  simp only [List.getD_eq_getElem?_getD, List.getElem?_set_self h, Option.getD_some]

/-- An entry of counts[] is at most the number of lengths it counts. -/
theorem countLengths_getD_le (ls : List Nat) (c : List (BitVec 16)) {L : Nat} (hL : L ≠ 0) :
    ((countLengths ls c).getD L 0).toNat ≤ (c.getD L 0).toNat + ls.count L := by
  induction ls generalizing c with
  | nil => simp [countLengths]
  | cons l ls ih =>
    unfold countLengths
    refine Nat.le_trans (ih _) ?_
    rw [List.count_cons]
    by_cases e : l = L
    · subst e
      have one := toNat_add_one_le (c.getD l 0)
      by_cases hl : l < c.length
      · rw [if_neg hL, getD_set_self _ hl, beq_self_eq_true, if_pos rfl]; omega
      · rw [if_neg hL, List.set_eq_of_length_le (by omega)]; omega
    · have other : (if l = 0 then c else c.set l (c.getD l 0 + 1)).getD L 0 = c.getD L 0 := by
        split
        · rfl
        · exact getD_set_ne c e _ _
      rw [other]; omega

theorem sum_set_add_one_le (c : List (BitVec 16)) (l : Nat) :
    ((c.set l (c.getD l 0 + 1)).map BitVec.toNat).sum ≤ (c.map BitVec.toNat).sum + 1 := by
  induction c generalizing l with
  | nil => simp
  | cons x xs ih =>
    cases l with
    | zero =>
      have := toNat_add_one_le x
      simp only [List.getD_cons_zero, List.set_cons_zero, List.map_cons, List.sum_cons]; omega
    | succ l =>
      have := ih l
      simp only [List.getD_cons_succ, List.set_cons_succ, List.map_cons, List.sum_cons]; omega

/-- There are no more codes than lengths. -/
theorem sum_countLengths_le (ls : List Nat) (c : List (BitVec 16)) :
    ((countLengths ls c).map BitVec.toNat).sum ≤ (c.map BitVec.toNat).sum + ls.length := by
  induction ls generalizing c with
  | nil => simp [countLengths]
  | cons l ls ih =>
    unfold countLengths
    refine Nat.le_trans (ih _) ?_
    rw [List.length_cons]
    split
    · omega
    · have := sum_set_add_one_le c l; omega

theorem tableCodes_eq_sum {T : Table} (h0 : T.counts.getD 0 0 = 0) : tableCodes T = (T.counts.map BitVec.toNat).sum := by
  unfold tableCodes
  cases h : T.counts with
  | nil => rfl
  | cons c cs =>
    rw [h, List.getD_cons_zero] at h0
    simp [h0]

/-! ## The places -/

theorem offsetsFrom_length (cs : List (BitVec 16)) (acc : Nat) : (offsetsFrom cs acc).length = cs.length := by
  induction cs generalizing acc with
  | nil => rfl
  | cons c cs ih => simp [offsetsFrom, ih]

/-- Every place among the codes is one of the places of some length. -/
theorem exists_length_of_place (cs : List (BitVec 16)) {acc i : Nat} (h : acc ≤ i)
    (hi : i < acc + (cs.map BitVec.toNat).sum) :
    ∃ L, L < cs.length ∧ (offsetsFrom cs acc).getD L 0 ≤ i ∧ i < (offsetsFrom cs acc).getD L 0 + (cs.getD L 0).toNat := by
  induction cs generalizing acc with
  | nil => simp at hi; omega
  | cons c cs ih =>
    rw [List.map_cons, List.sum_cons] at hi
    by_cases hc : i < acc + c.toNat
    · exact ⟨0, by simp, by simpa [offsetsFrom] using h, by simpa [offsetsFrom] using hc⟩
    · obtain ⟨L, hL, lo, hi⟩ := ih (acc := acc + c.toNat) (by omega) (by omega)
      exact ⟨L + 1, by simpa using hL, by simpa [offsetsFrom] using lo, by simpa [offsetsFrom] using hi⟩

/-- The placing loop lists symbols below `n`: place `i` holds one once it is among the places that some length still fills. -/
theorem placeSymbols_lt {n i : Nat} (ls : List Nat) (sym : Nat) (offs : List Nat) (symbols : List (BitVec 9))
    (hi : i < symbols.length) (hn : sym + ls.length ≤ n)
    (h : (symbols.getD i 0).toNat < n ∨
      ∃ L, L ≠ 0 ∧ L < offs.length ∧ offs.getD L 0 ≤ i ∧ i < offs.getD L 0 + ls.count L) :
    ((placeSymbols ls sym offs symbols).getD i 0).toNat < n := by
  induction ls generalizing sym offs symbols with
  | nil =>
    rcases h with h | ⟨L, -, -, lo, hi⟩
    · exact h
    · rw [List.count_nil] at hi; omega
  | cons l ls ih =>
    rw [List.length_cons] at hn
    have small : (BitVec.ofNat 9 sym).toNat < n := by
      rw [BitVec.toNat_ofNat]; exact Nat.lt_of_le_of_lt (Nat.mod_le _ _) (by omega)
    unfold placeSymbols
    split
    · rename_i hl
      refine ih _ _ _ hi (by omega) (h.imp_right fun ⟨L, h0, hL, lo, hi⟩ => ⟨L, h0, hL, lo, ?_⟩)
      rwa [List.count_cons_of_ne (by omega)] at hi
    · rename_i hl
      refine ih _ _ _ (by simpa using hi) (by omega) ?_
      by_cases place : offs.getD l 0 = i
      · left; rw [place, getD_set_self _ hi]; exact small
      rw [getD_set_ne _ place, List.length_set]
      refine h.imp_right fun ⟨L, h0, hL, lo, hi⟩ => ⟨L, h0, hL, ?_⟩
      by_cases e : l = L
      · subst e
        rw [List.count_cons_self] at hi
        rw [getD_set_self _ hL]
        omega
      · rw [List.count_cons_of_ne e] at hi
        rw [getD_set_ne _ e]
        exact ⟨lo, hi⟩

/-- Build over at most `n` lengths lists a symbol below `n` in every place that a walk can read (R115). -/
theorem build_builtOver (unset : Nat → BitVec 9) {cap n : Nat} {lens : List Nat} (hc : lens.length ≤ cap)
    (hn : lens.length ≤ n) : builtOver n (build unset cap lens) := by
  obtain ⟨-, zero, size⟩ := build_shaped unset cap lens
  have codes := tableCodes_eq_sum zero
  have few : ((build unset cap lens).counts.map BitVec.toNat).sum ≤ lens.length :=
    (sum_countLengths_le lens (List.replicate 16 0)).trans_eq (Nat.zero_add _)
  refine ⟨by omega, fun i hi => ?_⟩
  obtain ⟨L, hL, lo, hi⟩ := exists_length_of_place (build unset cap lens).counts (acc := 0) (Nat.zero_le i) (by omega)
  have h0 : L ≠ 0 := by
    rintro rfl
    rw [zero] at hi
    exact absurd lo (Nat.not_le.mpr hi)
  have count : ((build unset cap lens).counts.getD L 0).toNat ≤ lens.count L := by
    have start : (List.replicate 16 (0 : BitVec 16)).getD L 0 = 0 := by
      rw [List.getD_eq_getElem?_getD, List.getElem?_getD_replicate_default_eq]
    have k := countLengths_getD_le lens (List.replicate 16 0) h0
    rw [start] at k
    exact k.trans_eq (Nat.zero_add _)
  have filled := Nat.lt_of_lt_of_le hi (Nat.add_le_add_left count _)
  have offs : L < (offsetsFrom (build unset cap lens).counts 0).length := by rw [offsetsFrom_length]; exact hL
  exact placeSymbols_lt lens 0 _ _ (by simp; omega) (by omega) (.inr ⟨L, h0, offs, lo, filled⟩)

/-! ## The walk -/

theorem symbolAt_lt {n : Nat} {T : Table} (hT : builtOver n T) {draw i : Nat} (hi : i < tableCodes T) :
    (T.symbolAt draw i).toNat < n := by
  obtain ⟨size, below⟩ := hT
  have hs : i < T.symbols.length := by omega
  simpa [Table.symbolAt, hs] using below i hi

/-- A walk stays among the codes: at length `L` it has `index` shorter codes behind it, and `first` is no larger than `code`. -/
theorem walk_symbol_lt {σ : Type} {src : BitSource σ} {T : Table} {n draw fuel L code first index : Nat} {x y : σ}
    {v : BitVec 9} (hT : builtOver n T) (hl : index + ((T.counts.drop L).map BitVec.toNat).sum = tableCodes T)
    (hc : first ≤ code) (hf : L + fuel ≤ T.counts.length)
    (h : walk src T draw fuel L code first index x = .ok (v, y)) : v.toNat < n := by
  induction fuel generalizing L code first index x with
  | zero => cases h
  | succ fuel ih =>
    have hL : L < T.counts.length := by omega
    rw [List.drop_eq_getElem_cons hL, List.map_cons, List.sum_cons] at hl
    have count : T.count L = T.counts[L].toNat := by simp [Table.count, hL]
    unfold walk at h
    split at h
    · cases h
    · split at h
      · cases h
        exact symbolAt_lt hT (by omega)
      · exact ih (by omega) (by omega) (by omega) h

/-- DecodeSym over a table that Build wrote gives one of the symbols it was built over (R115). -/
theorem decodeSym_lt {σ : Type} {src : BitSource σ} {T : Table} {n draw : Nat} {x y : σ} {v : BitVec 9}
    (hl : T.counts.length = 16) (hT : builtOver n T) (h : decodeSym src T draw x = .ok (v, y)) : v.toNat < n :=
  walk_symbol_lt hT (Nat.zero_add _) (Nat.le_refl 0) (by rw [hl]; decide) h

/-- A code-length symbol over a table built over 19 symbols is one of the four of R93. -/
theorem decode_clSymbol_fetches {P : State → Prop} (hP : KeptByReads P) {c : Ctx} {s : State}
    (hl : c.clen.counts.length = 16) (hT : builtOver 19 c.clen) (h : P s) :
    Fetches (decode cursorSource .clSymbol c s) fun i t =>
      P t ∧ ((∃ l, i = .clLen l) ∨ (∃ e, i = .clRepeatPrev e) ∨ (∃ e, i = .clRepeatZero3 e) ∨ ∃ e, i = .clRepeatZero11 e) := by
  have sym := decodeSym_fetches hP (T := c.clen) (draw := c.draw) h
  simp only [decode, decodeClSymbol]
  split
  · rename_i e; exact sym.of_error e
  · rename_i v t e
    have ht : P t := sym.of_ok e
    have below := decodeSym_lt hl hT e
    have two := readField_fetches (hP 2 (by omega) (by omega)) ht
    have three := readField_fetches (hP 3 (by omega) (by omega)) ht
    have seven := readField_fetches (hP 7 (by omega) (by omega)) ht
    split
    · exact Fetches.ok ⟨ht, .inl ⟨_, rfl⟩⟩
    split
    · split
      · split
        · rename_i e; exact two.of_error e
        · rename_i e; exact Fetches.ok ⟨two.of_ok e, .inr (.inl ⟨_, rfl⟩)⟩
      · exact Fetches.ok ⟨ht, .inr (.inl ⟨_, rfl⟩)⟩
    split
    · split
      · rename_i e; exact three.of_error e
      · rename_i e; exact Fetches.ok ⟨three.of_ok e, .inr (.inr (.inl ⟨_, rfl⟩))⟩
    split
    · split
      · rename_i e; exact seven.of_error e
      · rename_i e; exact Fetches.ok ⟨seven.of_ok e, .inr (.inr (.inr ⟨_, rfl⟩))⟩
    · omega

end Sys2Proof.Machine
end

section
/-! SUPPORT. The control part of the invariant: which outcomes of an instruction meet it, and that every element of INFLATE has
one of them (R130 to R168). -/

namespace Sys2Proof.Machine

/-! ## Outcomes -/

/-- `r` is a next state, and it has `P`: neither a fault nor a refusal. -/
def reaches (r : Result) (P : State → Prop) : Prop := ∃ t, r = .next t ∧ P t

theorem reaches_next {P : State → Prop} {t : State} (h : P t) : reaches (.next t) P := ⟨t, rfl, h⟩

theorem reaches_andThen {r : Result} {f : State → Result} {P : State → Prop} (h : reaches r fun t => reaches (f t) P) :
    reaches (andThen r f) P := by
  obtain ⟨t, rfl, ht⟩ := h
  exact ht

theorem reaches_orRaise_map {s : State} {r : Except ErrDetail State} {f : State → State} {P : State → Prop}
    (ok : ∀ t, r = .ok t → P (f t)) (error : ∀ d, P (raiseInflate d s)) : reaches (orRaise s (r.map f)) P := by
  cases r with
  | ok t => exact reaches_next (ok t rfl)
  | error d => exact reaches_next (error d)

/-- An element's fetch and its instruction: a fetch that fails raises. -/
theorem reaches_runElement {elem : Elem} {s : State} {P : State → Prop}
    (h : Fetches (decode cursorSource elem s.ctx s) fun i t => reaches (exec i t) P) (error : ∀ d, P (raiseInflate d s)) :
    reaches (runElement elem s) P := by
  unfold runElement
  split
  · rename_i e; exact h.of_ok e
  · exact reaches_next (error _)
  · exact reaches_next (error _)
  · rename_i e; exact absurd e h.1

/-! ## The control part of the invariant -/

/-- The invariant without the stored data: STATUS agrees with the sequencer, and a running command stands where its next step
needs it. -/
abbrev State.controlOk (s : State) : Prop :=
  s.statusOk ∧
    (s.state = .busy → s.phase = .run →
      (cmdOp s.cmdl = 1 → s.inflateOk) ∧
      (cmdOp s.cmdl = 2 → s.rowReady (s.stride + 1) s.stride) ∧
      (cmdOp s.cmdl = 3 → s.rowReady s.stride (s.stride + 1) ∧ s.sfbFt.toNat ≤ 4))

theorem State.inv_iff (s : State) : s.inv ↔ Memory.wf s.mem ∧ s.shaped ∧ s.controlOk := Iff.rfl

/-- No error is recorded (R23, R32). -/
abbrev State.noError (s : State) : Prop := s.errDetail = 0 ∧ s.errClass = 0 ∧ s.errByte = 0 ∧ s.errBit = 0

theorem State.noError_of_statusOk {s : State} (h : s.statusOk) (hs : s.state ≠ .error) : s.noError := by
  obtain ⟨error, -, errClass, pos, -⟩ := h
  have detail : s.errDetail = 0 := not_not.1 (mt error.2 hs)
  exact ⟨detail, by rw [errClass, detail]; rfl, pos hs⟩

/-- The command `op` runs, past its start step (R270). -/
abbrev State.runs (s : State) (op : BitVec 4) : Prop :=
  s.state = .busy ∧ s.phase = .run ∧ cmdOp s.cmdl = op ∧ s.lastOp = op ∧ s.noError

theorem raise_controlOk (op : Op) (d : ErrDetail) (p : ErrPos) (s : State) : (raise op d p s).controlOk :=
  ⟨raise_statusOk op d p s, nofun⟩

theorem complete_controlOk {s : State} (h : s.noError) (hs : s.st = .idle) (hp : s.pending = .none) :
    (complete s).controlOk := by
  obtain ⟨detail, errClass, errByte, errBit⟩ := h
  refine ⟨⟨?_, ?_, ?_, fun _ => ⟨errByte, errBit⟩, ?_, hp, nofun, nofun⟩, nofun⟩
  · simp [detail]
  · simp [detail]
  · simp [detail, errClass, detailClass]
  · simp [hs]

/-- A running command between two of its steps. -/
theorem runs_controlOk {s : State} {op : BitVec 4} (h : s.runs op) (hop : op = 1 ∨ op = 2 ∨ op = 3)
    (hs : s.st ≠ .idle ↔ op = 1) (hp : s.pending = .none) (h1 : op = 1 → s.inflateOk)
    (h2 : op = 2 → s.rowReady (s.stride + 1) s.stride)
    (h3 : op = 3 → s.rowReady s.stride (s.stride + 1) ∧ s.sfbFt.toNat ≤ 4) : s.controlOk := by
  obtain ⟨busy, run, rfl, last, detail, errClass, errByte, errBit⟩ := h
  refine ⟨⟨?_, ?_, ?_, fun _ => ⟨errByte, errBit⟩, ?_, hp, fun _ => ⟨last, ?_⟩, fun _ _ => hop⟩, fun _ _ => ⟨h1, h2, h3⟩⟩
  · simp [detail, busy]
  · simp [detail]
  · simp [detail, errClass, detailClass]
  · simp [hs, busy, run]
  · rcases hop with e | e | e <;> rw [e] <;> decide

/-! ## Between and inside the elements of INFLATE -/

/-- INFLATE runs, its windows are valid, the cursor stands in the stream and OUT is not over-full. -/
abbrev State.atElement (s : State) : Prop :=
  s.runs 1 ∧ s.windowsOk = true ∧ s.cursorOk ∧ s.outLen.toNat ≤ s.outCap.toNat

/-- What the next element relies on beside that, by DBD.ST (R141, R146, R149 (a), R166 (a)). -/
abbrev State.decoderOk (s : State) : Prop :=
  (s.st = .storedByte → s.storedRem ≠ 0 ∧ s.bitCnt = 0) ∧
    (s.st = .dynCll → s.countsOk ∧ 4 ≤ s.hclen.toNat ∧ s.hclen.toNat ≤ 19) ∧
    (s.st = .dynCl → s.countsOk ∧ s.lensIdx.toNat < s.lensTotal ∧ builtOver 19 s.clen) ∧
    (s.st = .sym → builtOver 288 s.lit ∧ builtOver 32 s.dist)

theorem atElement_controlOk {s : State} (h : s.atElement) (hs : s.st ≠ .idle) (hp : s.pending = .none)
    (hd : s.decoderOk) : s.controlOk := by
  obtain ⟨runs, windows, cursor, room⟩ := h
  exact runs_controlOk runs (.inl rfl) (iff_of_true hs rfl) hp (fun _ => ⟨windows, cursor, room, hd⟩)
    (fun k => absurd k (by decide)) fun k => absurd k (by decide)

/-- DBD.ST values at which the next element relies on nothing more. -/
theorem decoderOk_of_plain {s : State} (h : s.st = .hdr ∨ s.st = .storedHdr ∨ s.st = .dynHdr) : s.decoderOk := by
  rcases h with h | h | h <;> simp [State.decoderOk, h]

theorem atElement_of_cursorOnly {s t : State} (h : s.atElement) (ho : s.cursorOnly t) (hc : t.cursorOk) :
    t.atElement := by
  obtain ⟨runs, windows, -, room⟩ := h
  unfold State.cursorOnly at ho
  have rest : t.runs 1 ∧ t.windowsOk = true ∧ t.outLen.toNat ≤ t.outCap.toNat := by rw [ho]; exact ⟨runs, windows, room⟩
  exact ⟨rest.1, rest.2.1, hc, rest.2.2⟩

/-! ## Output beside the cursor -/

theorem windowsOk_iff (s : State) :
    s.windowsOk = true ↔
      s.inBase.toNat + s.inLen.toNat ≤ 2 ^ 32 ∧ s.outBase.toNat + s.outCap.toNat ≤ 2 ^ 32 ∧
        (s.inLen = 0 ∨ s.outCap = 0 ∨ s.inBase.toNat + s.inLen.toNat ≤ s.outBase.toNat ∨
          s.outBase.toNat + s.outCap.toNat ≤ s.inBase.toNat) := by
  simp only [State.windowsOk, State.inOk, State.outOk, State.disjoint, Bool.and_eq_true, decide_eq_true_eq, and_assoc]

/-- Valid windows share no address (R61, R62). -/
theorem windowAddr_in_ne_out {s : State} (h : s.windowsOk = true) {j k : Nat} (hj : j < s.inLen.toNat)
    (hk : k < s.outCap.toNat) : windowAddr s.inBase j ≠ windowAddr s.outBase k := by
  obtain ⟨hi, ho, apart⟩ := (windowsOk_iff s).1 h
  rw [windowAddr_of_lt (by omega), windowAddr_of_lt (by omega)]
  rcases apart with e | e | e | e
  · rw [e] at hj; exact absurd hj (Nat.not_lt_zero _)
  · rw [e] at hk; exact absurd hk (Nat.not_lt_zero _)
  · omega
  · omega

/-- A byte written outside IN leaves the cursor in the stream. -/
theorem cursorOk_memWrite {s : State} {a : Nat} (h : s.cursorOk) (ha : ∀ k, k < s.inLen.toNat → windowAddr s.inBase k ≠ a)
    (v : Byte) : (s.memWrite a v).cursorOk := by
  obtain ⟨few, cnt, pos, bits⟩ := (State.cursorOk_iff s).1 h
  refine (State.cursorOk_iff _).2 ⟨few, cnt, pos, fun b => (bits b).trans ?_⟩
  show (decide (b < s.bitCnt.toNat) && s.streamBit (s.bp + b)) =
    (decide (b < s.bitCnt.toNat) && (s.memWrite a v).streamBit (s.bp + b))
  by_cases hb : b < s.bitCnt.toNat
  · have inside : (s.bp + b) / 8 < s.inLen.toNat := by unfold State.bp; omega
    simp [State.streamBit, ha _ inside]
  · simp [hb]

theorem emit_atElement {v : Byte} {s t : State} (h : s.atElement) (e : emit v s = .ok t) : t.atElement := by
  obtain ⟨runs, windows, cursor, room⟩ := h
  unfold emit at e
  split at e
  · cases e
  · rename_i full
    cases e
    have less : s.outLen.toNat < s.outCap.toNat := Nat.lt_of_le_of_ne room fun k => full (BitVec.eq_of_toNat_eq k)
    have outside : ∀ k, k < s.inLen.toNat → windowAddr s.inBase k ≠ windowAddr s.outBase s.outLen.toNat :=
      fun k hk => windowAddr_in_ne_out windows hk less
    have cursor' := cursorOk_memWrite cursor outside v
    refine ⟨runs, windows, cursor', ?_⟩
    show (s.outLen + 1).toNat ≤ s.outCap.toNat
    rw [BitVec.toNat_add]
    exact Nat.le_trans (Nat.mod_le _ _) less

/-- Emit changes M and OUT_LEN only (R138). -/
theorem emit_only {v : Byte} {s t : State} (e : emit v s = .ok t) : t = { s with mem := t.mem, outLen := t.outLen } := by
  unfold emit at e
  split at e <;> cases e
  rfl

/-- Copy changes M and OUT_LEN only (R165). -/
theorem copy_only {len dist : Nat} {s t : State} (e : copy len dist s = .ok t) :
    t = { s with mem := t.mem, outLen := t.outLen } := by
  rcases copy_cases len dist s with k | ⟨u, k, f, -⟩
  · rw [k] at e; cases e
  · obtain rfl : u = t := Except.ok.inj (k.symm.trans e)
    exact f

theorem copy_atElement {len dist : Nat} {s t : State} (h : s.atElement) (e : copy len dist s = .ok t) : t.atElement := by
  induction len generalizing s with
  | zero => cases e; exact h
  | succ len ih =>
    unfold copy at e
    split at e
    · cases e
    · rename_i k; exact ih (emit_atElement h k) e

/-! ## The end of an element -/

theorem endOfBlock_controlOk {s : State} (h : s.atElement) (hp : s.pending = .none) : (endOfBlock s).controlOk := by
  by_cases f : s.bfinal = 1
  · obtain ⟨⟨-, -, -, -, clean⟩, -⟩ := h
    rw [endOfBlock_final f]
    exact complete_controlOk clean rfl hp
  · rw [endOfBlock_more f]
    have plain : { s with st := .hdr }.decoderOk := decoderOk_of_plain (.inl rfl)
    exact atElement_controlOk h nofun hp plain

/-- What is left of the element runs to a state that meets the control part of the invariant. -/
def State.endsElement (s : State) : Prop := reaches (continueElement s) State.controlOk

/-- An element without a second part has ended. -/
theorem State.controlOk.endsElement {s : State} (h : s.controlOk) : s.endsElement := by
  have none : s.pending = .none := h.1.2.2.2.2.2.1
  unfold State.endsElement
  rw [continueElement_none none]
  exact reaches_next h

theorem raiseInflate_endsElement (d : ErrDetail) (s : State) : (raiseInflate d s).endsElement :=
  State.controlOk.endsElement (raise_controlOk _ _ _ _)

/-! ## Reading from an element's start -/

/-- The state `t` after reading from `s`: another cursor, still in the stream. -/
abbrev State.readTo (s t : State) : Prop := s.cursorOnly t ∧ t.cursorOk

theorem readTo_keptByReads (s : State) : KeptByReads s.readTo := fun n hn hn' _ _ _ ⟨ho, hc⟩ e =>
  ⟨State.cursorOnly_trans ho (readBits_cursorOnly e), cursorOk_keptByReads n hn hn' hc e⟩

theorem readToAligned_readKeeps (s : State) {n : Nat} (hn : 1 ≤ n) (hn' : n ≤ 32) (h8 : n % 8 = 0) :
    ReadKeeps n fun t => s.cursorOnly t ∧ t.cursorAligned := fun ⟨ho, hc⟩ e =>
  ⟨State.cursorOnly_trans ho (readBits_cursorOnly e), cursorAligned_readKeeps hn hn' h8 hc e⟩

/-! ## Block headers and stored blocks -/

theorem fixedLitLens_length : fixedLitLens.length = 288 := by
  simp only [fixedLitLens, List.length_append, List.length_replicate]

/-- The BTYPE dispatch (R131 to R135). -/
theorem exec_decodeBlockType_controlOk {s : State} (h : s.atElement) (f : BitVec 1) (b : BitVec 2) :
    reaches (exec (decodeBlockType f b) s) State.controlOk := by
  unfold decodeBlockType
  split
  · simp only [exec, execBlkStored]
    split
    · have plain : { headerDone f 0 s with st := .storedHdr }.decoderOk := decoderOk_of_plain (.inr (.inl rfl))
      exact reaches_next (atElement_controlOk h nofun rfl plain)
    · exact reaches_next (raise_controlOk _ _ _ _)
  · have lit : builtOver 288 (s.built 0 fixedLitLens) := build_builtOver _ fixedLitLens_length.le fixedLitLens_length.le
    have few : fixedDistLens.length ≤ 32 := by simp [fixedDistLens]
    have dist : builtOver 32 (s.built 1 fixedDistLens) := build_builtOver _ few few
    exact reaches_next (atElement_controlOk h nofun rfl ⟨nofun, nofun, nofun, fun _ => ⟨lit, dist⟩⟩)
  · have plain : { drawLens (headerDone f 2 s) with st := .dynHdr }.decoderOk := decoderOk_of_plain (.inr (.inr rfl))
    exact reaches_next (atElement_controlOk h nofun rfl plain)
  · exact reaches_next (raise_controlOk _ _ _ _)

theorem blockHeader_endsElement {s : State} (h : s.atElement) : reaches (runElement .blockHeader s) State.endsElement := by
  refine reaches_runElement ?_ fun d => raiseInflate_endsElement d s
  refine (decode_blockHeader_fetches (readTo_keptByReads s) ⟨rfl, h.2.2.1⟩).mono ?_
  rintro _ t ⟨⟨ho, hc⟩, f, b, rfl⟩
  have at' := atElement_of_cursorOnly h ho hc
  have next : { t with bfinal := f, btype := b, pending := .blockType }.atElement := at'
  refine reaches_next ?_
  unfold State.endsElement
  rw [continueElement_blockType rfl]
  exact exec_decodeBlockType_controlOk next f b

theorem storedHeader_endsElement {s : State} (h : s.atElement) (hp : s.pending = .none) :
    reaches (runElement .storedHeader s) State.endsElement := by
  refine reaches_runElement ?_ fun d => raiseInflate_endsElement d s
  have start : s.cursorOnly (alignToByte s) ∧ (alignToByte s).cursorAligned := ⟨rfl, alignToByte_cursorAligned h.2.2.1⟩
  refine (decode_storedHeader_fetches (readToAligned_readKeeps s (by omega) (by omega) rfl) start).mono ?_
  rintro _ t ⟨⟨ho, hc, hb⟩, len, nlen, rfl⟩
  have at' := atElement_of_cursorOnly h ho hc
  have none : t.pending = .none := by rw [ho]; exact hp
  simp only [exec, execStoredHeader]
  split
  · exact reaches_next (raiseInflate_endsElement _ _)
  split
  · have next : { t with storedRem := len }.atElement := at'
    exact reaches_next (endOfBlock_controlOk next none).endsElement
  · rename_i hl
    have next : { t with storedRem := len, st := .storedByte }.atElement := at'
    have rest : { t with storedRem := len, st := .storedByte }.decoderOk :=
      ⟨fun _ => ⟨hl, bitCnt_eq_zero_of_aligned hc hb⟩, nofun, nofun, nofun⟩
    exact reaches_next (atElement_controlOk next nofun none rest).endsElement

theorem storedByte_endsElement {s : State} (h : s.atElement) (hp : s.pending = .none) (hs : s.st = .storedByte)
    (hd : s.decoderOk) : reaches (runElement .storedByte s) State.endsElement := by
  refine reaches_runElement ?_ fun d => raiseInflate_endsElement d s
  obtain ⟨-, empty⟩ := hd.1 hs
  have start : s.cursorOnly s ∧ s.cursorAligned := ⟨rfl, h.2.2.1, by simp [State.bp, empty]⟩
  refine (decode_storedByte_fetches (readToAligned_readKeeps s (by omega) (by omega) rfl) start).mono ?_
  rintro _ t ⟨⟨ho, hc, hb⟩, b, rfl⟩
  have at' := atElement_of_cursorOnly h ho hc
  have same : t.pending = .none ∧ t.st = .storedByte := by rw [ho]; exact ⟨hp, hs⟩
  refine reaches_orRaise_map (fun u e => ?_) fun d => raiseInflate_endsElement d t
  have next := emit_atElement at' e
  have cnt : t.bitCnt = 0 := bitCnt_eq_zero_of_aligned hc hb
  have left : u.pending = .none ∧ u.st = .storedByte ∧ u.bitCnt = 0 := by
    rw [emit_only e]; exact ⟨same.1, same.2, cnt⟩
  obtain ⟨none, st, cnt⟩ := left
  have counted : { u with storedRem := u.storedRem - 1 }.atElement := next
  unfold storedByteDone
  split
  · exact (endOfBlock_controlOk counted none).endsElement
  · rename_i more
    have rest : { u with storedRem := u.storedRem - 1 }.decoderOk :=
      ⟨fun _ => ⟨more, cnt⟩, by simp [st], by simp [st], by simp [st]⟩
    exact (atElement_controlOk counted (by simp [st]) none rest).endsElement

/-! ## Dynamic block headers and code lengths -/

theorem dynHeader_endsElement {s : State} (h : s.atElement) (hp : s.pending = .none) :
    reaches (runElement .dynHeader s) State.endsElement := by
  refine reaches_runElement ?_ fun d => raiseInflate_endsElement d s
  refine (decode_dynHeader_fetches (readTo_keptByReads s) ⟨rfl, h.2.2.1⟩).mono ?_
  rintro _ t ⟨⟨ho, hc⟩, hlit, hdist, hclen, rfl⟩
  have at' := atElement_of_cursorOnly h ho hc
  have none : t.pending = .none := by rw [ho]; exact hp
  simp only [exec, execDynHeader]
  split
  · exact reaches_next (raiseInflate_endsElement _ _)
  · have counts : (257 ≤ (hlit.setWidth 9 + 257 : BitVec 9).toNat ∧ (hlit.setWidth 9 + 257 : BitVec 9).toNat ≤ 288 ∧
        1 ≤ (hdist.setWidth 6 + 1 : BitVec 6).toNat ∧ (hdist.setWidth 6 + 1 : BitVec 6).toNat ≤ 32) ∧
        4 ≤ (hclen.setWidth 5 + 4 : BitVec 5).toNat ∧ (hclen.setWidth 5 + 4 : BitVec 5).toNat ≤ 19 := by
      simp only [BitVec.toNat_add, BitVec.toNat_setWidth, BitVec.ofNat_eq_ofNat, BitVec.toNat_ofNat]
      omega
    refine reaches_next (State.controlOk.endsElement (atElement_controlOk ?_ nofun ?_ ⟨nofun, fun _ => counts, nofun, nofun⟩))
    · exact at'
    · exact none

theorem dynClLengths_endsElement {s : State} (h : s.atElement) (hp : s.pending = .none) (hs : s.st = .dynCll)
    (hd : s.decoderOk) : reaches (runElement .dynClLengths s) State.endsElement := by
  refine reaches_runElement ?_ fun d => raiseInflate_endsElement d s
  refine (decode_dynClLengths_fetches (readTo_keptByReads s) ⟨rfl, h.2.2.1⟩).mono ?_
  rintro _ t ⟨⟨ho, hc⟩, ls, rfl⟩
  have at' := atElement_of_cursorOnly h ho hc
  have same : t.pending = .none ∧ t.countsOk := by rw [ho]; exact ⟨hp, (hd.2.1 hs).1⟩
  obtain ⟨none, counts⟩ := same
  have total : (0 : BitVec 9).toNat < t.lensTotal := by
    obtain ⟨l, -⟩ := counts
    exact Nat.lt_of_lt_of_le (by omega : 0 < t.hlit.toNat) (Nat.le_add_right _ _)
  have size : (scatterLengths clOrder ls (List.replicate Config.clenCap 0)).length = 19 :=
    (scatterLengths_length _ _ _).trans List.length_replicate
  have clen : builtOver 19 (t.built 2 ((scatterLengths clOrder ls (List.replicate Config.clenCap 0)).map BitVec.toNat)) :=
    build_builtOver _ (by rw [List.length_map, size]; decide) (by rw [List.length_map, size])
  refine reaches_next (State.controlOk.endsElement (atElement_controlOk ?_ nofun ?_
    ⟨nofun, nofun, fun _ => ⟨counts, total, clen⟩, nofun⟩))
  · exact at'
  · exact none

/-- After code lengths were written, at most up to HLIT + HDIST: the next one is due, or the tables are built (R154). -/
theorem lengthsDone_controlOk {s : State} (h : s.atElement) (hp : s.pending = .none) (hs : s.st = .dynCl)
    (hc : s.countsOk) (hT : builtOver 19 s.clen) (hi : s.lensIdx.toNat ≤ s.lensTotal) : (lengthsDone s).controlOk := by
  by_cases e : s.lensIdx.toNat = s.lensTotal
  · obtain ⟨-, hlit, -, hdist⟩ := hc
    have lit : builtOver 288 (s.built 0 ((s.lens.take s.hlit.toNat).map BitVec.toNat)) := by
      have few : ((s.lens.take s.hlit.toNat).map BitVec.toNat).length ≤ 288 := by simp; omega
      exact build_builtOver _ few few
    have dist : builtOver 32 (s.built 1 (((s.lens.drop s.hlit.toNat).take s.hdist.toNat).map BitVec.toNat)) := by
      have few : (((s.lens.drop s.hlit.toNat).take s.hdist.toNat).map BitVec.toNat).length ≤ 32 := by simp; omega
      exact build_builtOver _ few few
    rw [lengthsDone, if_pos e]
    refine atElement_controlOk ?_ nofun ?_ ⟨nofun, nofun, nofun, fun _ => ⟨lit, dist⟩⟩
    · exact h
    · exact hp
  · rw [lengthsDone_more e]
    have less : s.lensIdx.toNat < s.lensTotal := by omega
    exact atElement_controlOk h (by simp [hs]) hp
      ⟨by simp [hs], by simp [hs], fun _ => ⟨hc, less, hT⟩, by simp [hs]⟩

theorem runLengths_endsElement {s : State} (h : s.atElement) (hp : s.pending = .none) (hs : s.st = .dynCl)
    (hc : s.countsOk) (hT : builtOver 19 s.clen) (v : BitVec 4) (r : Nat) :
    reaches (runLengths v r s) State.endsElement := by
  unfold runLengths
  split
  · exact reaches_next (raiseInflate_endsElement _ _)
  · rename_i fits
    have total : s.lensTotal ≤ 320 := by obtain ⟨-, l, -, d⟩ := hc; unfold State.lensTotal; omega
    have idx : (s.lensIdx + BitVec.ofNat 9 r).toNat ≤ s.lensTotal := by
      rw [BitVec.toNat_add, BitVec.toNat_ofNat]; omega
    exact reaches_next (lengthsDone_controlOk
      (s := { s with lens := fillLens v r s.lensIdx.toNat s.lens, lensIdx := s.lensIdx + BitVec.ofNat 9 r })
      h hp hs hc hT idx).endsElement

theorem clSymbol_endsElement {s : State} (h : s.atElement) (hp : s.pending = .none) (hs : s.st = .dynCl)
    (hd : s.decoderOk) (hl : s.clen.counts.length = 16) : reaches (runElement .clSymbol s) State.endsElement := by
  refine reaches_runElement ?_ fun d => raiseInflate_endsElement d s
  obtain ⟨counts, less, built⟩ := hd.2.2.1 hs
  refine (decode_clSymbol_fetches (readTo_keptByReads s) hl built ⟨rfl, h.2.2.1⟩).mono ?_
  rintro i t ⟨⟨ho, hc⟩, kind⟩
  have at' := atElement_of_cursorOnly h ho hc
  have same : t.pending = .none ∧ t.st = .dynCl ∧ t.countsOk ∧ builtOver 19 t.clen ∧ t.lensIdx.toNat < t.lensTotal := by
    rw [ho]; exact ⟨hp, hs, counts, built, less⟩
  obtain ⟨none, st, counts, built, less⟩ := same
  rcases kind with ⟨l, rfl⟩ | ⟨e, rfl⟩ | ⟨e, rfl⟩ | ⟨e, rfl⟩
  · have idx : (t.lensIdx + 1).toNat ≤ t.lensTotal := by
      rw [BitVec.toNat_add]; exact Nat.le_trans (Nat.mod_le _ _) less
    exact reaches_next (lengthsDone_controlOk
      (s := { t with lens := t.lens.set t.lensIdx.toNat l, lensIdx := t.lensIdx + 1 })
      at' none st counts built idx).endsElement
  · simp only [exec, execClRepeatPrev]
    split
    · exact reaches_next (raiseInflate_endsElement _ _)
    · exact runLengths_endsElement at' none st counts built _ _
  · exact runLengths_endsElement at' none st counts built _ _
  · exact runLengths_endsElement at' none st counts built _ _

/-! ## Symbols -/

/-- What a literal/length symbol can do: a literal, the end of the block, a length whose distance is to come, or an error. -/
theorem exec_litLenInstr_cases (sym e : Nat) (s : State) :
    (∃ b, exec (litLenInstr sym e) s = execLit b s) ∨ exec (litLenInstr sym e) s = execEob s ∨
      (∃ n x, exec (litLenInstr sym e) s = lengthPart n x s) ∨
      exec (litLenInstr sym e) s = .next (raiseInflate .litLenSymbolInvalid s) := by
  unfold litLenInstr
  split
  · exact .inl ⟨_, rfl⟩
  · split
    all_goals first
      | exact .inr (.inl rfl)
      | exact .inr (.inr (.inl ⟨_, _, rfl⟩))
      | exact .inr (.inr (.inr rfl))

/-- What a distance symbol can do: finish the match, or an error. -/
theorem exec_distInstr_cases (d e : Nat) (s : State) :
    (∃ n x, exec (distInstr d e) s = distancePart n x s) ∨
      exec (distInstr d e) s = .next (raiseInflate .distSymbolInvalid s) := by
  unfold distInstr
  split
  all_goals first
    | exact .inl ⟨_, _, rfl⟩
    | exact .inr rfl

theorem distance_controlOk {s : State} (h : s.atElement) (hl : builtOver 288 s.lit) (hd : builtOver 32 s.dist) :
    reaches (runElement .distance s) State.controlOk := by
  refine reaches_runElement ?_ fun d => raise_controlOk _ _ _ _
  refine (decode_distance_fetches (readTo_keptByReads s) ⟨rfl, h.2.2.1⟩).mono ?_
  rintro _ t ⟨⟨ho, hc⟩, d, e, rfl⟩
  have at' := atElement_of_cursorOnly h ho hc
  have tables : builtOver 288 t.lit ∧ builtOver 32 t.dist := by rw [ho]; exact ⟨hl, hd⟩
  rcases exec_distInstr_cases d e t with ⟨n, x, run⟩ | run
  · rw [run, distancePart]
    split
    · exact reaches_next (raise_controlOk _ _ _ _)
    refine reaches_orRaise_map (fun u r => ?_) fun d => raise_controlOk _ _ _ _
    have copied : (matchDone u).atElement := (copy_atElement at' r :)
    have same : builtOver 288 u.lit ∧ builtOver 32 u.dist := by rw [copy_only r]; exact tables
    exact atElement_controlOk copied nofun rfl ⟨nofun, nofun, nofun, fun _ => same⟩
  · rw [run]; exact reaches_next (raise_controlOk _ _ _ _)

theorem litLen_endsElement {s : State} (h : s.atElement) (hp : s.pending = .none) (hs : s.st = .sym) (hd : s.decoderOk) :
    reaches (runElement .litLen s) State.endsElement := by
  refine reaches_runElement ?_ fun d => raiseInflate_endsElement d s
  refine (decode_litLen_fetches (readTo_keptByReads s) ⟨rfl, h.2.2.1⟩).mono ?_
  rintro _ t ⟨⟨ho, hc⟩, sym, e, rfl⟩
  have at' := atElement_of_cursorOnly h ho hc
  have same : t.pending = .none ∧ builtOver 288 t.lit ∧ builtOver 32 t.dist := by rw [ho]; exact ⟨hp, hd.2.2.2 hs⟩
  obtain ⟨none, lit, dist⟩ := same
  rcases exec_litLenInstr_cases sym e t with ⟨b, run⟩ | run | ⟨n, x, run⟩ | run
  · rw [run]
    refine reaches_orRaise_map (fun u r => ?_) fun d => raiseInflate_endsElement d t
    have emitted : { u with st := .sym }.atElement := (emit_atElement at' r :)
    have same : u.pending = .none ∧ builtOver 288 u.lit ∧ builtOver 32 u.dist := by
      rw [emit_only r]; exact ⟨none, lit, dist⟩
    exact (atElement_controlOk emitted nofun same.1 ⟨nofun, nofun, nofun, fun _ => same.2⟩).endsElement
  · rw [run]; exact reaches_next (endOfBlock_controlOk at' none).endsElement
  · rw [run]
    have next : { t with pending := .distance (lbase n + x) }.atElement := at'
    refine reaches_next ?_
    unfold State.endsElement
    rw [continueElement_distance rfl]
    exact distance_controlOk next lit dist
  · rw [run]; exact reaches_next (raiseInflate_endsElement _ _)

theorem reaches_inflateStep {s : State} {elem : Elem} (hp : s.pending = .none) (he : elemOf s.st = some elem)
    (h : reaches (runElement elem (markStart s)) State.endsElement) : reaches (inflateStep s) State.controlOk := by
  rw [inflateStep_element hp he]; exact reaches_andThen h

/-- Every element of INFLATE, in both its parts, ends in a state that meets the control part of the invariant (R130). -/
theorem inflateStep_controlOk {s : State} (h : s.atElement) (hs : s.st ≠ .idle) (hp : s.pending = .none)
    (hd : s.decoderOk) (hl : s.clen.counts.length = 16) : reaches (inflateStep s) State.controlOk := by
  have start : (markStart s).atElement := h
  have rest : (markStart s).decoderOk := hd
  cases st : s.st with
  | idle => exact absurd st hs
  | hdr => exact reaches_inflateStep hp (by rw [st]; rfl) (blockHeader_endsElement start)
  | storedHdr => exact reaches_inflateStep hp (by rw [st]; rfl) (storedHeader_endsElement start hp)
  | storedByte => exact reaches_inflateStep hp (by rw [st]; rfl) (storedByte_endsElement start hp st rest)
  | dynHdr => exact reaches_inflateStep hp (by rw [st]; rfl) (dynHeader_endsElement start hp)
  | dynCll => exact reaches_inflateStep hp (by rw [st]; rfl) (dynClLengths_endsElement start hp st rest)
  | dynCl => exact reaches_inflateStep hp (by rw [st]; rfl) (clSymbol_endsElement start hp st rest hl)
  | sym => exact reaches_inflateStep hp (by rw [st]; rfl) (litLen_endsElement start hp st rest)

end Sys2Proof.Machine
end

section
/-! SUPPORT. The invariant of a run, kept by every move: the start steps, the rows of DEFILTER and FILTER, and the host's
accesses (R14, R270, R311, R330). -/

namespace Sys2Proof.Machine

/-! ## Rows -/

/-- A row of a running DEFILTER or FILTER that was written: the next row is due, or the command is complete (R240, R248). -/
theorem rowDone_controlOk {s : State} {op : BitVec 4} (h : s.runs op) (hop : op = 2 ∨ op = 3) (hs : s.st = .idle)
    (hp : s.pending = .none) (h2 : op = 2 → s.rowReady (s.stride + 1) s.stride)
    (h3 : op = 3 → s.rowReady s.stride (s.stride + 1) ∧ s.sfbFt.toNat ≤ 4) (n : Nat) (m : List Host.Cell) :
    (rowDone n m s).controlOk := by
  have one : op ≠ 1 := by rcases hop with rfl | rfl <;> decide
  unfold rowDone
  split
  · obtain ⟨-, -, -, -, clean⟩ := h
    exact complete_controlOk clean hs hp
  · rename_i more
    have next : s.sfbRow.toNat < s.height.toNat → (s.sfbRow + 1).toNat < s.height.toNat := by
      intro less
      have := s.height.isLt
      have succ : (s.sfbRow + 1).toNat = s.sfbRow.toNat + 1 := by
        rw [BitVec.toNat_add, show (1 : Word).toNat = 1 from rfl]; omega
      have ne : (s.sfbRow + 1).toNat ≠ s.height.toNat := fun k => more (BitVec.eq_of_toNat_eq k)
      omega
    refine runs_controlOk (op := op) ?_ (.inr hop) ?_ ?_ (fun k => absurd k one) (fun k => ?_) fun k => ?_
    · exact h
    · exact iff_of_false (fun k => k hs) one
    · exact hp
    · obtain ⟨windows, src, dst, row⟩ := h2 k
      exact ⟨windows, src, dst, next row⟩
    · obtain ⟨⟨windows, src, dst, row⟩, ft⟩ := h3 k
      exact ⟨⟨windows, src, dst, next row⟩, ft⟩

theorem defilterStep_controlOk {s : State} (h : s.runs 2) (hs : s.st = .idle) (hp : s.pending = .none)
    (hr : s.rowReady (s.stride + 1) s.stride) : reaches (exec (decodeFilterType s.filterByte) s) State.controlOk := by
  have row : ∀ pred, reaches (defilterRow pred s) State.controlOk := fun _ =>
    reaches_next (rowDone_controlOk h (.inl rfl) hs hp (fun _ => hr) (fun k => absurd k (by decide)) _ _)
  unfold decodeFilterType
  split
  · exact row predNone
  · exact row predSub
  · exact row predUp
  · exact row predAvg
  · exact row predPaeth
  · exact reaches_next (raise_controlOk _ _ _ _)

theorem filterStep_controlOk {s : State} (h : s.runs 3) (hs : s.st = .idle) (hp : s.pending = .none)
    (hr : s.rowReady s.stride (s.stride + 1)) (hf : s.sfbFt.toNat ≤ 4) :
    reaches (exec (decodeFilterRow s.sfbFt) s) State.controlOk := by
  have row : ∀ type pred, reaches (filterRow type pred s) State.controlOk := fun _ _ =>
    reaches_next (rowDone_controlOk h (.inr rfl) hs hp (fun k => absurd k (by decide)) (fun _ => ⟨hr, hf⟩) _ _)
  unfold decodeFilterRow
  split
  · exact row 0 predNone
  · exact row 1 predSub
  · exact row 2 predUp
  · exact row 3 predAvg
  · exact row 4 predPaeth
  case h_6 => omega
  case h_7 => omega
  case h_8 => simp only [imp_false] at *; omega

/-! ## The start step (R271) -/

/-- The accepted command `op` takes its start step: no error stands, and the decoder is idle. -/
abbrev State.starts (s : State) (op : BitVec 4) : Prop := s.runs op ∧ s.st = .idle ∧ s.pending = .none

theorem starts_complete {s : State} {op : BitVec 4} (h : s.starts op) : (complete s).controlOk := by
  obtain ⟨⟨-, -, -, -, clean⟩, st, pending⟩ := h
  exact complete_controlOk clean st pending

theorem starts_of_cursorOnly {s t : State} {op : BitVec 4} (h : s.starts op) (ho : s.cursorOnly t) : t.starts op := by
  unfold State.cursorOnly at ho; rw [ho]; exact h

theorem starts_setTable {s : State} {op : BitVec 4} (h : s.starts op) (tbl : BitVec 2) (T : Table) :
    (s.setTable tbl T).starts op := by
  unfold State.setTable; split <;> exact h

theorem geometryError_none {a b : Nat} {s : State} (h : geometryError a b s = none) :
    a ≤ s.inLen.toNat ∧ b ≤ s.outCap.toNat := by
  unfold geometryError at h
  split at h
  · cases h
  · split at h
    · cases h
    · omega

/-- The first row is due, or there is none (R274, R275). -/
theorem rowsStart_controlOk {s : State} {op : BitVec 4} (h : s.starts op) (hop : op = 2 ∨ op = 3)
    (hw : s.windowsOk = true)
    (h2 : op = 2 → geometryError ((s.stride + 1) * s.height.toNat) (s.stride * s.height.toNat) s = none)
    (h3 : op = 3 →
      geometryError (s.stride * s.height.toNat) ((s.stride + 1) * s.height.toNat) s = none ∧ s.sfbFt.toNat ≤ 4) :
    (rowsStart s).controlOk := by
  obtain ⟨runs, st, pending⟩ := h
  have one : op ≠ 1 := by rcases hop with rfl | rfl <;> decide
  unfold rowsStart
  split
  · obtain ⟨-, -, -, -, clean⟩ := runs
    exact complete_controlOk clean st pending
  · rename_i some
    have first : (0 : Word).toNat < s.height.toNat := Nat.pos_of_ne_zero fun k => some (BitVec.eq_of_toNat_eq k)
    refine runs_controlOk (op := op) ?_ (.inr hop) ?_ ?_ (fun k => absurd k one) (fun k => ?_) fun k => ?_
    · exact runs
    · exact iff_of_false (fun k => k st) one
    · exact pending
    · obtain ⟨src, dst⟩ := geometryError_none (h2 k)
      exact ⟨hw, src, dst, first⟩
    · obtain ⟨geometry, ft⟩ := h3 k
      obtain ⟨src, dst⟩ := geometryError_none geometry
      exact ⟨⟨hw, src, dst, first⟩, ft⟩

theorem execInflate_controlOk {s : State} (h : s.starts 1) : reaches (execInflate s) State.controlOk := by
  obtain ⟨runs, -, pending⟩ := h
  unfold execInflate
  split
  · rename_i windows
    refine reaches_next (atElement_controlOk ⟨?_, windows, resetCursor_cursorOk s, Nat.zero_le _⟩ nofun ?_ ?_)
    · exact runs
    · exact pending
    · exact ⟨nofun, nofun, nofun, nofun⟩
  · exact reaches_next (raise_controlOk _ _ _ _)

theorem execDefilter_controlOk {s : State} (h : s.starts 2) : reaches (execDefilter s) State.controlOk := by
  unfold execDefilter
  split
  · rename_i windows
    split
    · exact reaches_next (raise_controlOk _ _ _ _)
    · rename_i geometry
      exact reaches_next (rowsStart_controlOk h (.inl rfl) windows (fun _ => geometry) fun k => absurd k (by decide))
  · exact reaches_next (raise_controlOk _ _ _ _)

theorem execFilter_controlOk {s : State} (h : s.starts 3) (ft : BitVec 3) : reaches (execFilter ft s) State.controlOk := by
  unfold execFilter
  split
  · rename_i windows
    split
    · exact reaches_next (raise_controlOk _ _ _ _)
    · rename_i type
      split
      · exact reaches_next (raise_controlOk _ _ _ _)
      · rename_i geometry
        refine reaches_next (rowsStart_controlOk (op := 3) ?_ (.inr rfl) windows (fun k => absurd k (by decide))
          fun _ => ⟨geometry, Nat.not_lt.mp type⟩)
        exact h
  · exact reaches_next (raise_controlOk _ _ _ _)

theorem decodeFilterStart_controlOk {s : State} (h : s.starts 3) (ft : BitVec 3) :
    reaches (exec (decodeFilterStart ft) s) State.controlOk := by
  unfold decodeFilterStart
  split
  · exact reaches_next (raise_controlOk _ _ _ _)
  · exact reaches_next (raise_controlOk _ _ _ _)
  · exact reaches_next (raise_controlOk _ _ _ _)
  · exact execFilter_controlOk h ft

theorem execHuffBuild_controlOk {s : State} {op : BitVec 4} (h : s.starts op) (tbl : BitVec 2) :
    reaches (execHuffBuild tbl s) State.controlOk := by
  unfold execHuffBuild
  split
  · exact reaches_next (raise_controlOk _ _ _ _)
  · have built := starts_complete (starts_setTable h tbl (s.built tbl s.buildLengths))
    exact reaches_next built

theorem execHuffDecode_controlOk {s : State} {op : BitVec 4} (h : s.starts op) (tbl : BitVec 2) :
    reaches (execHuffDecode tbl s) State.controlOk := by
  unfold execHuffDecode
  split
  · split
    · rename_i e
      have read := starts_complete (starts_of_cursorOnly h (decodeSym_cursorOnly e))
      exact reaches_next read
    all_goals exact reaches_next (raise_controlOk _ _ _ _)
  · exact reaches_next (raise_controlOk _ _ _ _)

theorem execBitsRead_controlOk {s : State} {op : BitVec 4} (h : s.starts op) (n : BitVec 6) :
    reaches (execBitsRead n s) State.controlOk := by
  unfold execBitsRead
  split
  · split
    · rename_i e
      have read := starts_complete (starts_of_cursorOnly h (readBits_cursorOnly e))
      exact reaches_next read
    · exact reaches_next (raise_controlOk _ _ _ _)
  · exact reaches_next (raise_controlOk _ _ _ _)

theorem execCrcUpdate_controlOk {s : State} {op : BitVec 4} (h : s.starts op) :
    reaches (execCrcUpdate s) State.controlOk := by
  have done := starts_complete h
  unfold execCrcUpdate
  split
  · exact reaches_next done
  · exact reaches_next (raise_controlOk _ _ _ _)

theorem execCrcCheck_controlOk {s : State} {op : BitVec 4} (h : s.starts op) :
    reaches (execCrcCheck s) State.controlOk := by
  have done := starts_complete h
  unfold execCrcCheck
  split
  · exact reaches_next done
  · exact reaches_next (raise_controlOk _ _ _ _)

/-- The start step of every command but CLEAR, which ENGINE never sees (R270). -/
theorem startStep_controlOk {s : State} {w : Word} (h : s.starts (cmdOp w)) (hc : cmdOp w ≠ 0xF) :
    reaches (exec (decodeCommand w) s) State.controlOk := by
  have done := starts_complete h
  have op : ∀ k, k < 16 → (cmdOp w).toNat = k → cmdOp w = BitVec.ofNat 4 k := fun k hk e =>
    BitVec.eq_of_toNat_eq (by rw [e, BitVec.toNat_ofNat, Nat.mod_eq_of_lt hk])
  unfold decodeCommand
  split
  case h_1 => exact reaches_next done
  case h_2 e => rw [op 1 (by decide) e] at h; exact execInflate_controlOk h
  case h_3 e => rw [op 2 (by decide) e] at h; exact execDefilter_controlOk h
  case h_4 e => rw [op 3 (by decide) e] at h; exact decodeFilterStart_controlOk h _
  case h_5 => exact reaches_next done
  case h_6 => exact execCrcUpdate_controlOk h
  case h_7 => exact execCrcCheck_controlOk h
  case h_8 => exact execHuffBuild_controlOk h _
  case h_9 => exact execHuffDecode_controlOk h _
  case h_10 => exact execBitsRead_controlOk h _
  case h_11 =>
    have aligned : (alignToByte s).starts (cmdOp w) := h
    exact reaches_next (starts_complete aligned)
  case h_12 =>
    have cleared : (resetCursor s).starts (cmdOp w) := h
    exact reaches_next (starts_complete cleared)
  case h_13 => exact reaches_next (raise_controlOk _ _ _ _)
  case h_14 => exact reaches_next (raise_controlOk _ _ _ _)
  case h_15 => exact reaches_next (raise_controlOk _ _ _ _)
  case h_16 =>
    refine absurd (op 15 (by decide) ?_) hc
    have := (cmdOp w).isLt
    simp only [imp_false] at *
    omega

/-! ## ENGINE -/

/-- ENGINE's step never faults, and it keeps the control part of the invariant (R270, R271). -/
theorem engineStep_controlOk {s : State} (h : s.inv) (hb : s.state = .busy) : reaches (engineStep s) State.controlOk := by
  obtain ⟨-, shaped, status, running⟩ := h
  have clean := State.noError_of_statusOk status (by simp [hb])
  obtain ⟨-, -, -, -, st, pending, accepted, ops⟩ := status
  obtain ⟨last, notClear⟩ := accepted hb
  cases hp : s.phase with
  | start =>
    have idle : s.st = .idle := not_not.1 (mt st.1 (by simp [hp]))
    have starts : { s with phase := .run }.starts (cmdOp s.cmdl) := ⟨⟨hb, rfl, rfl, last, clean⟩, idle, pending⟩
    rw [engineStep_start hp]
    exact startStep_controlOk starts notClear
  | run =>
    obtain ⟨inflate, defilter, filter⟩ := running hb hp
    have runs : s.runs (cmdOp s.cmdl) := ⟨hb, hp, rfl, last, clean⟩
    have idle : cmdOp s.cmdl ≠ 1 → s.st = .idle := fun k => not_not.1 (mt st.1 fun ⟨_, _, one⟩ => k one)
    rcases ops hb hp with op | op | op
    · obtain ⟨windows, cursor, room, decoder⟩ := inflate op
      obtain ⟨-, -, -, -, ⟨clen, -⟩⟩ := shaped
      rw [engineStep_inflate hp op]
      exact inflateStep_controlOk ⟨op ▸ runs, windows, cursor, room⟩ (st.2 ⟨hb, hp, op⟩) pending decoder clen
    · rw [engineStep_defilter hp op]
      exact defilterStep_controlOk (op ▸ runs) (idle (by simp [op])) pending (defilter op)
    · obtain ⟨ready, type⟩ := filter op
      rw [engineStep_filter hp op]
      exact filterStep_controlOk (op ▸ runs) (idle (by simp [op])) pending ready type

theorem engineTurn_controlOk {s : State} (h : s.inv) : reaches (engineTurn s) State.controlOk := by
  unfold engineTurn
  split
  · rename_i hb; exact engineStep_controlOk h hb
  · exact reaches_next h.2.2

/-! ## HOST -/

/-- Outside BUSY the control part of the invariant is STATUS's legality alone. -/
theorem controlOk_of_not_busy {s : State} (h : s.statusOk) (hb : s.state ≠ .busy) : s.controlOk :=
  ⟨h, fun k => absurd k hb⟩

/-- Outside BUSY the decoder is idle (R130). -/
theorem State.st_idle_of_statusOk {s : State} (h : s.statusOk) (hb : s.state ≠ .busy) : s.st = .idle := by
  obtain ⟨-, -, -, -, st, -⟩ := h
  exact not_not.1 (mt st.1 fun ⟨busy, _⟩ => hb busy)

theorem acceptCommand_controlOk {s : State} {w : Word} (h : s.statusOk) (hb : s.state ≠ .busy) (hw : cmdOp w ≠ 0xF) :
    (acceptCommand w s).controlOk := by
  have idle := State.st_idle_of_statusOk h hb
  obtain ⟨-, -, -, -, -, pending, -⟩ := h
  exact ⟨⟨by simp, by simp, rfl, fun _ => ⟨rfl, rfl⟩, by simp [idle], pending, fun _ => ⟨rfl, hw⟩, nofun⟩, nofun⟩

theorem clearError_controlOk {s : State} (h : s.statusOk) (hb : s.state ≠ .busy) : (clearError s).controlOk := by
  have idle := State.st_idle_of_statusOk h hb
  obtain ⟨-, -, -, -, -, pending, -⟩ := h
  exact ⟨⟨by simp, by simp, rfl, fun _ => ⟨rfl, rfl⟩, by simp [idle], pending, nofun, nofun⟩, nofun⟩

/-- The word of a CMD write with OP 0xF is CLEAR. -/
theorem decodeCommand_clear {w : Word} (h : cmdOp w = 0xF) : decodeCommand w = .clear := by
  rw [decodeCommand, h]; rfl

theorem commandWrite_controlOk {s : State} (w : Word) (h : s.statusOk) (hb : s.state ≠ .busy) :
    reaches (commandWrite w s) State.controlOk := by
  unfold commandWrite
  split
  · rename_i clear
    rw [decodeCommand_clear clear]
    exact reaches_next (clearError_controlOk h hb)
  · rename_i other
    split
    · exact reaches_next (controlOk_of_not_busy h hb)
    · exact reaches_next (acceptCommand_controlOk h hb other)

theorem operandWrite_controlOk {s : State} (index : BitVec 6) (v : Word) (h : s.statusOk) (hb : s.state ≠ .busy) :
    (operandWrite index v s).controlOk := by
  unfold operandWrite
  split <;> exact ⟨h, fun k => absurd k hb⟩

theorem writeRegister_controlOk {s : State} (index : BitVec 6) (v : Word) (h : s.inv) :
    reaches (writeRegister index v s) State.controlOk := by
  obtain ⟨-, -, control⟩ := h
  unfold writeRegister
  split
  · exact reaches_next control
  · rename_i hb
    split
    · exact commandWrite_controlOk v control.1 hb
    · exact reaches_next (operandWrite_controlOk index v control.1 hb)

/-- A byte that the host may touch lies outside IN while a command runs (R330). -/
theorem windowAddr_ne_of_hostMayTouch {s : State} {a : Addr} (ht : s.hostMayTouch a = true) (hb : s.state = .busy)
    (hw : s.windowsOk = true) {k : Nat} (hk : k < s.inLen.toNat) : windowAddr s.inBase k ≠ a.toNat := by
  obtain ⟨fits, -⟩ := (windowsOk_iff s).1 hw
  rw [windowAddr_of_lt (by omega)]
  intro e
  have inside : s.inIn a = true := by
    unfold State.inIn
    exact decide_eq_true ⟨by omega, by omega⟩
  simp [State.hostMayTouch, hb, inside] at ht

theorem memWrite_controlOk {s : State} {a : Addr} (h : s.controlOk) (ht : s.hostMayTouch a = true) (v : Byte) :
    (s.memWrite a.toNat v).controlOk := by
  obtain ⟨status, running⟩ := h
  refine ⟨status, fun hb hp => ?_⟩
  obtain ⟨inflate, rows⟩ := running hb hp
  refine ⟨fun op => ?_, rows⟩
  obtain ⟨windows, cursor, rest⟩ := inflate op
  exact ⟨windows, cursorOk_memWrite cursor (fun _ => windowAddr_ne_of_hostMayTouch ht hb windows) v, rest⟩

theorem resetBlock_controlOk (s : State) : (resetBlock s).controlOk := by
  have status : State.reset.statusOk := by decide
  exact controlOk_of_not_busy status nofun

/-! ## One move -/

/-- A refused host access (R330, U7): the move, and that a command runs. -/
def refusesAccess (m : Move) (r : Result) (s : State) : Prop :=
  r = .refused .windowAccessWhileBusy ∧ s.state = .busy ∧ ∃ a, m = .readMem a ∨ ∃ v, m = .writeMem a v

theorem busy_of_not_hostMayTouch {s : State} {a : Addr} (h : ¬ s.hostMayTouch a = true) : s.state = .busy := by
  by_contra hb
  exact h (by simp [State.hostMayTouch, hb])

/-- Every move keeps the control part of the invariant, or is a host access that is refused. -/
theorem moveStep_controlOk (m : Move) {s : State} (h : s.inv) :
    reaches (moveStep m s) State.controlOk ∨ refusesAccess m (moveStep m s) s := by
  obtain ⟨-, -, control⟩ := id h
  cases m with
  | writeReg index v => exact .inl (writeRegister_controlOk index v h)
  | readReg index => exact .inl (reaches_next control)
  | writeMem a v =>
    simp only [moveStep]
    split
    · rename_i ht; exact .inl (reaches_next (memWrite_controlOk control ht v))
    · rename_i ht; exact .inr ⟨rfl, busy_of_not_hostMayTouch ht, a, .inr ⟨v, rfl⟩⟩
  | readMem a =>
    simp only [moveStep]
    split
    · exact .inl (reaches_next control)
    · rename_i ht; exact .inr ⟨rfl, busy_of_not_hostMayTouch ht, a, .inl rfl⟩
  | poll =>
    simp only [moveStep]
    split
    · rename_i hb
      have polled : { s with hostRead := s.statusWord, moves := .poll :: s.moves }.inv := h
      exact .inl (engineStep_controlOk polled hb)
    · exact .inl (reaches_next control)
  | engine => exact .inl (engineTurn_controlOk h)
  | reset => exact .inl (reaches_next (resetBlock_controlOk s))

/-- A turn that answers a next state in order makes a step that keeps the whole invariant. -/
theorem step_inv_of_turn {s : State} (h : s.inv) (ht : reaches (turn s) State.controlOk) :
    ∃ t, step s = .next t ∧ t.inv := by
  obtain ⟨u, hu, control⟩ := ht
  have next : step s = .next (tickOn u) := step_eq_next.2 ⟨u, hu, rfl⟩
  obtain ⟨keepsCanonical, keepsShape⟩ := step_storesKept next
  obtain ⟨canonical, shaped, -⟩ := s.inv_iff.1 h
  exact ⟨tickOn u, next, (State.inv_iff _).2 ⟨keepsCanonical canonical, keepsShape shaped, control⟩⟩

/-- Settles O58: the stored data by `step_storesKept`, the control part move by move. -/
theorem runsKeepInvariantAndNeverFault : Obligations.RunsKeepInvariantAndNeverFault := by
  intro s h
  cases hm : s.moves with
  | nil =>
    refine .inl (step_inv_of_turn h ?_)
    rw [turn, hm]
    exact engineTurn_controlOk h
  | cons m ms =>
    have taken : { s with moves := ms }.inv := h
    have hturn : turn s = moveStep m { s with moves := ms } := by rw [turn, hm]
    rcases moveStep_controlOk m taken with next | ⟨refused, busy, a, access⟩
    · exact .inl (step_inv_of_turn h (hturn ▸ next))
    · refine .inr ⟨?_, busy, a, m, rfl, access⟩
      rw [step, hturn, refused]; rfl

end Sys2Proof.Machine
end

section
/-! SUPPORT. What an element of INFLATE can do, whatever the state: the format of a decoded instruction, and the outcomes of its
meaning (R130 to R168). -/

namespace Sys2Proof.Machine

/-! ## The format of a decoded instruction -/

theorem formatOf_decodeBlockType (f : BitVec 1) (b : BitVec 2) : formatOf (decodeBlockType f b) = .blockType := by
  unfold decodeBlockType; split <;> rfl

theorem formatOf_litLenInstr (sym e : Nat) : formatOf (litLenInstr sym e) = .litLen := by
  unfold litLenInstr
  split
  · rfl
  · split <;> rfl

theorem formatOf_distInstr (d e : Nat) : formatOf (distInstr d e) = .distance := by
  unfold distInstr; split <;> rfl

/-- The formats of INFLATE's stream: not a command, and not a row of DEFILTER or FILTER. -/
def isStreamFormat : Elem → Bool
  | .blockHeader | .storedHeader | .storedByte | .dynHeader | .dynClLengths | .clSymbol | .litLen | .distance | .blockType => true
  | .defilterRow | .command | .filterRow => false

section
variable {σ : Type} {src : BitSource σ} {c : Ctx} {x y : σ} {i : Instr}

theorem formatOf_map {α : Type} {r : Except DecodeError (α × σ)} {f : α × σ → Instr} {elem : Elem}
    (hf : ∀ p, formatOf (f p) = elem) (h : (r.map fun p => (f p, p.2)) = .ok (i, y)) : formatOf i = elem := by
  cases r <;> cases h
  exact hf _

theorem formatOf_decodeStoredHeader (h : decodeStoredHeader src x = .ok (i, y)) : formatOf i = .storedHeader := by
  unfold decodeStoredHeader at h
  repeat' split at h
  all_goals cases h <;> rfl

theorem formatOf_decodeDynHeader (h : decodeDynHeader src x = .ok (i, y)) : formatOf i = .dynHeader := by
  unfold decodeDynHeader at h
  repeat' split at h
  all_goals cases h <;> rfl

theorem formatOf_decodeClSymbol (h : decodeClSymbol src c x = .ok (i, y)) : formatOf i = .clSymbol := by
  unfold decodeClSymbol at h
  repeat' split at h
  all_goals cases h <;> rfl

theorem formatOf_decodeLitLen (h : decodeLitLen src c x = .ok (i, y)) : formatOf i = .litLen := by
  unfold decodeLitLen at h
  repeat' split at h
  all_goals cases h <;> exact formatOf_litLenInstr _ _

theorem formatOf_decodeDistance (h : decodeDistance src c x = .ok (i, y)) : formatOf i = .distance := by
  unfold decodeDistance at h
  repeat' split at h
  all_goals cases h <;> exact formatOf_distInstr _ _

/-- What is decoded in a format of INFLATE's stream is an instruction of that format. -/
theorem formatOf_decode {elem : Elem} (he : isStreamFormat elem = true) (h : decode src elem c x = .ok (i, y)) :
    formatOf i = elem := by
  cases elem with
  | blockHeader => exact formatOf_map (fun _ => rfl) h
  | blockType => exact formatOf_map (r := readHeader src x) (fun p => formatOf_decodeBlockType p.1.1 p.1.2) h
  | storedHeader => exact formatOf_decodeStoredHeader h
  | storedByte => exact formatOf_map (fun _ => rfl) h
  | dynHeader => exact formatOf_decodeDynHeader h
  | dynClLengths => exact formatOf_map (fun _ => rfl) h
  | clSymbol => exact formatOf_decodeClSymbol h
  | litLen => exact formatOf_decodeLitLen (src := src) (c := c) (x := x) (y := y) h
  | distance => exact formatOf_decodeDistance h
  | defilterRow | command | filterRow => cases he

theorem isStreamFormat_of_elemOf {st : DbdState} {elem : Elem} (h : elemOf st = some elem) : isStreamFormat elem = true := by
  cases st <;> cases h <;> rfl

end

/-! ## The outcomes of an element -/

/-- `t` is `s` with other registers of the decoder, another output and another STATE (R34, R41, R138). -/
abbrev State.decoderOnly (s t : State) : Prop :=
  t = { s with
    state := t.state, outLen := t.outLen, mem := t.mem, st := t.st, pending := t.pending, bfinal := t.bfinal, btype := t.btype
    storedRem := t.storedRem, hlit := t.hlit, hdist := t.hdist, hclen := t.hclen, lensIdx := t.lensIdx, lens := t.lens
    clLens := t.clLens, lit := t.lit, dist := t.dist, clen := t.clen }

/-- All that an element of INFLATE can do: it raises, or it writes the decoder's registers and the output alone, and then the
stream goes on, or INFLATE is done (R130, R139). -/
inductive ElementOutcome (s : State) : State → Prop
  | raises (d : ErrDetail) : ElementOutcome s (raiseInflate d s)
  | goesOn {t : State} (only : s.decoderOnly t) (state : t.state = s.state) (st : s.st ≠ .idle → t.st ≠ .idle) :
    ElementOutcome s t
  | done {t : State} (only : s.decoderOnly t) (state : t.state = .done) (st : t.st = .idle) (pending : t.pending = s.pending) :
    ElementOutcome s t

theorem orRaise_map_outcome {s t : State} {r : Except ErrDetail State} {f : State → State}
    (h : orRaise s (r.map f) = .next t) (ok : ∀ u, r = .ok u → ElementOutcome s (f u)) : ElementOutcome s t := by
  cases r with
  | ok u => cases h; exact ok u rfl
  | error d => cases h; exact .raises d

/-- The end of a block whose last element wrote the decoder's registers and the output (R139). -/
theorem endOfBlock_outcome {s u : State} (only : s.decoderOnly u) (state : u.state = s.state)
    (pending : u.pending = s.pending) : ElementOutcome s (endOfBlock u) := by
  unfold endOfBlock
  split
  · exact .done (by rw [only]; rfl) rfl rfl pending
  · exact .goesOn (by rw [only]) state nofun

theorem storedByteDone_outcome {s u : State} (only : s.decoderOnly u) (state : u.state = s.state) (st : u.st = s.st)
    (pending : u.pending = s.pending) : ElementOutcome s (storedByteDone u) := by
  have counted : s.decoderOnly { u with storedRem := u.storedRem - 1 } := by rw [only]
  unfold storedByteDone
  split
  · exact endOfBlock_outcome counted state pending
  · exact .goesOn counted state (st ▸ id)

theorem execStoredByte_outcome {b : Byte} {s t : State} (h : execStoredByte b s = .next t) : ElementOutcome s t := by
  refine orRaise_map_outcome h fun u e => ?_
  have only := emit_only e
  exact storedByteDone_outcome (by rw [only]) (by rw [only]) (by rw [only]) (by rw [only])

theorem execLit_outcome {b : Byte} {s t : State} (h : execLit b s = .next t) : ElementOutcome s t := by
  refine orRaise_map_outcome h fun u e => ?_
  have only := emit_only e
  exact .goesOn (by rw [only]) (by rw [only]) nofun

theorem distancePart_outcome {d e : Nat} {s t : State} (h : distancePart d e s = .next t) : ElementOutcome s t := by
  unfold distancePart at h
  split at h
  · cases h; exact .raises _
  · refine orRaise_map_outcome h fun u e => ?_
    have only := copy_only e
    exact .goesOn (by rw [only]; rfl) (by rw [only]; rfl) nofun

theorem execStoredHeader_outcome {len nlen : BitVec 16} {s t : State} (h : execStoredHeader len nlen s = .next t) :
    ElementOutcome s t := by
  unfold execStoredHeader at h
  repeat' split at h
  · cases h; exact .raises _
  · cases h; exact endOfBlock_outcome rfl rfl rfl
  · cases h; exact .goesOn rfl rfl nofun

theorem execDynHeader_outcome {hlit hdist : BitVec 5} {hclen : BitVec 4} {s t : State}
    (h : execDynHeader hlit hdist hclen s = .next t) : ElementOutcome s t := by
  simp only [execDynHeader] at h
  split at h
  · cases h; exact .raises _
  · cases h; exact .goesOn rfl rfl nofun

theorem execBlkStored_outcome {f : BitVec 1} {s t : State} (h : execBlkStored f s = .next t) : ElementOutcome s t := by
  unfold execBlkStored at h
  split at h
  · cases h; exact .goesOn rfl rfl nofun
  · cases h; exact .raises _

/-- After code lengths were written (R154). -/
theorem lengthsDone_outcome {s u : State} (only : s.decoderOnly u) (state : u.state = s.state) (st : u.st = s.st) :
    ElementOutcome s (lengthsDone u) := by
  unfold lengthsDone
  split
  · exact .goesOn (by rw [only]) state nofun
  · exact .goesOn only state (st ▸ id)

theorem runLengths_outcome {v : BitVec 4} {r : Nat} {s t : State} (h : runLengths v r s = .next t) : ElementOutcome s t := by
  unfold runLengths at h
  split at h
  · cases h; exact .raises _
  · cases h; exact lengthsDone_outcome rfl rfl rfl

theorem execClRepeatPrev_outcome {e : BitVec 2} {s t : State} (h : execClRepeatPrev e s = .next t) : ElementOutcome s t := by
  unfold execClRepeatPrev at h
  split at h
  · cases h; exact .raises _
  · exact runLengths_outcome h

theorem lengthPart_outcome {sym e : Nat} {s t : State} (h : lengthPart sym e s = .next t) : ElementOutcome s t := by
  cases h; exact .goesOn rfl rfl id

/-- Every instruction of INFLATE's stream has one of the outcomes of an element, in every state. -/
theorem exec_elementOutcome {i : Instr} {s t : State} (hi : isStreamFormat (formatOf i) = true) (h : exec i s = .next t) :
    ElementOutcome s t := by
  cases i
  case blockHeader => cases h; exact .goesOn rfl rfl id
  case storedHeader => exact execStoredHeader_outcome h
  case storedByte => exact execStoredByte_outcome h
  case dynHeader => exact execDynHeader_outcome h
  case dynClLengths => cases h; exact .goesOn rfl rfl nofun
  case blkStored => exact execBlkStored_outcome h
  case blkFixed => cases h; exact .goesOn rfl rfl nofun
  case blkDynamic => cases h; exact .goesOn rfl rfl nofun
  case lit => exact execLit_outcome h
  case eob => cases h; exact endOfBlock_outcome rfl rfl rfl
  case clLen => cases h; exact lengthsDone_outcome rfl rfl rfl
  case clRepeatPrev => exact execClRepeatPrev_outcome h
  case clRepeatZero3 => exact runLengths_outcome h
  case clRepeatZero11 => exact runLengths_outcome h
  case blkReserved | llReserved286 | llReserved287 | distReserved30 | distReserved31 => cases h; exact .raises _
  all_goals first
    | exact lengthPart_outcome h
    | exact distancePart_outcome h
    | cases hi

/-! ## The second part of an element -/

theorem distancePart_pending {d e : Nat} {s t : State} (h : distancePart d e s = .next t) : t.pending = .none := by
  unfold distancePart at h
  split at h
  · cases h; rfl
  · generalize copy s.matchLen (dbase d + e) s = r at h
    cases r <;> (cases h; rfl)

/-- The BTYPE dispatch leaves nothing to come (R131). -/
theorem exec_decodeBlockType_pending {f : BitVec 1} {b : BitVec 2} {s t : State}
    (h : exec (decodeBlockType f b) s = .next t) : t.pending = .none := by
  unfold decodeBlockType at h
  split at h
  case h_1 => simp only [exec, execBlkStored] at h; split at h <;> cases h <;> rfl
  all_goals cases h; rfl

/-- The distance part of a length code leaves nothing to come (R162). -/
theorem exec_distInstr_pending {d e : Nat} {s t : State} (h : exec (distInstr d e) s = .next t) : t.pending = .none := by
  rcases exec_distInstr_cases d e s with ⟨n, x, run⟩ | run
  · rw [run] at h; exact distancePart_pending h
  · rw [run] at h; cases h; rfl

end Sys2Proof.Machine
end

section
/-! SUPPORT. STATUS, the error registers and DBD.ST stay legal in every step, whatever the rest of the state (R23, R130, R270,
R300 to R302). -/

namespace Sys2Proof.Machine

/-! ## Elements of INFLATE -/

/-- INFLATE runs, between two elements or between the two parts of one. -/
abbrev State.inStream (s : State) : Prop := s.runs 1 ∧ s.st ≠ .idle

theorem inStream_statusOk {s : State} (h : s.inStream) (hp : s.pending = .none) : s.statusOk := by
  obtain ⟨⟨busy, run, op, last, detail, errClass, errByte, errBit⟩, st⟩ := h
  refine ⟨?_, ?_, ?_, fun _ => ⟨errByte, errBit⟩, ?_, hp, fun _ => ⟨last.trans op.symm, ?_⟩, fun _ _ => .inl op⟩
  · simp [busy, detail]
  · simp [detail]
  · simp [detail, errClass, detailClass]
  · simp [st, busy, run, op]
  · simp [op]

theorem inStream_of_cursorOnly {s t : State} (h : s.inStream) (ho : s.cursorOnly t) : t.inStream := by
  unfold State.cursorOnly at ho; rw [ho]; exact h

/-- A command that is done, with no error recorded. -/
theorem done_statusOk {s : State} (h : s.noError) (hd : s.state = .done) (hs : s.st = .idle) (hp : s.pending = .none) :
    s.statusOk := by
  have same : complete s = s := by rw [complete, ← hd]
  exact same ▸ (complete_controlOk h hs hp).1

/-- An element with nothing to come leaves STATUS legal. -/
theorem ElementOutcome.statusOk {s t : State} (h : ElementOutcome s t) (hs : s.inStream) (hp : t.pending = .none) :
    t.statusOk := by
  cases h with
  | raises d => exact raise_statusOk _ _ _ _
  | goesOn only state st =>
    have runs : t.runs 1 := by rw [only, state]; exact hs.1
    exact inStream_statusOk ⟨runs, st hs.2⟩ hp
  | done only state st _ =>
    have clean : t.noError := by rw [only]; exact hs.1.2.2.2.2
    exact done_statusOk clean state st hp

/-- An element with a second part to come is still in the stream. -/
theorem ElementOutcome.inStream {s t : State} (h : ElementOutcome s t) (hs : s.inStream) (none : s.pending = .none)
    (some : t.pending ≠ .none) : t.inStream := by
  cases h with
  | raises d => exact absurd rfl some
  | goesOn only state st =>
    have runs : t.runs 1 := by rw [only, state]; exact hs.1
    exact ⟨runs, st hs.2⟩
  | done _ _ _ pending => exact absurd (pending.trans none) some

/-- A fetch and its instruction: an outcome of an element, from a state that differs in the cursor. -/
theorem runElement_outcome {elem : Elem} {s t : State} (he : isStreamFormat elem = true) (h : runElement elem s = .next t) :
    ∃ u, s.cursorOnly u ∧ ElementOutcome u t := by
  unfold runElement at h
  split at h
  · rename_i e
    exact ⟨_, decode_cursorOnly e, exec_elementOutcome ((formatOf_decode he e).symm ▸ he) h⟩
  · cases h; exact ⟨s, rfl, .raises _⟩
  · cases h; exact ⟨s, rfl, .raises _⟩
  · cases h

theorem runElement_distance_pending {s t : State} (h : runElement .distance s = .next t) : t.pending = .none := by
  unfold runElement at h
  split at h
  · rename_i e
    have reads : KeptByReads fun _ => True := fun _ _ _ _ _ _ _ _ => trivial
    obtain ⟨-, d, x, rfl⟩ := (decode_distance_fetches reads trivial).of_ok e
    exact exec_distInstr_pending h
  · cases h; rfl
  · cases h; rfl
  · cases h

/-- What is left of an element leaves STATUS legal: the BTYPE dispatch (R131), or the distance part (R162). -/
theorem continueElement_statusOk {s t : State} (hs : s.pending = .none → s.statusOk)
    (hp : s.pending ≠ .none → s.inStream) (h : continueElement s = .next t) : t.statusOk := by
  cases pending : s.pending with
  | none => rw [continueElement_none pending] at h; cases h; exact hs pending
  | blockType =>
    rw [continueElement_blockType pending] at h
    have format : isStreamFormat (formatOf (decodeBlockType s.bfinal s.btype)) = true := by
      rw [formatOf_decodeBlockType]; rfl
    exact (exec_elementOutcome format h).statusOk (hp (by simp [pending])) (exec_decodeBlockType_pending h)
  | distance len =>
    rw [continueElement_distance pending] at h
    obtain ⟨u, cursor, outcome⟩ := runElement_outcome rfl h
    exact outcome.statusOk (inStream_of_cursorOnly (hp (by simp [pending])) cursor) (runElement_distance_pending h)

/-- One element of INFLATE, in both its parts (R130). -/
theorem inflateStep_statusOk {s t : State} (hs : s.inStream) (hp : s.pending = .none) (h : inflateStep s = .next t) :
    t.statusOk := by
  cases he : elemOf s.st with
  | none => simp [inflateStep, hp, he] at h
  | some elem =>
    rw [inflateStep_element hp he] at h
    obtain ⟨u, first, second⟩ := andThen_eq_next.1 h
    obtain ⟨v, cursor, outcome⟩ := runElement_outcome (isStreamFormat_of_elemOf he) first
    have start : v.inStream := inStream_of_cursorOnly (s := markStart s) hs cursor
    have none : v.pending = .none := by unfold State.cursorOnly at cursor; rw [cursor]; exact hp
    exact continueElement_statusOk (outcome.statusOk start) (outcome.inStream start none) second

/-! ## Rows of DEFILTER and FILTER -/

theorem rowDone_statusOk {s : State} (h : s.statusOk) (hs : s.st = .idle) (hc : s.noError) (n : Nat) (m : List Host.Cell) :
    (rowDone n m s).statusOk := by
  unfold rowDone
  split
  · obtain ⟨-, -, -, -, -, pending, -⟩ := h
    exact (complete_controlOk hc hs pending).1
  · exact h

section
variable {s : State} (h : s.statusOk) (hs : s.st = .idle) (hc : s.noError)
include h hs hc

theorem exec_decodeFilterType_statusOk {f : Byte} {t : State} (e : exec (decodeFilterType f) s = .next t) : t.statusOk := by
  unfold decodeFilterType at e
  split at e
  case h_6 => cases e; exact raise_statusOk _ _ _ _
  all_goals cases e; exact rowDone_statusOk h hs hc _ _

theorem exec_decodeFilterRow_statusOk {ft : BitVec 3} {t : State} (e : exec (decodeFilterRow ft) s = .next t) :
    t.statusOk := by
  unfold decodeFilterRow at e
  split at e
  case h_6 | h_7 | h_8 => cases e; exact raise_statusOk _ _ _ _
  all_goals cases e; exact rowDone_statusOk h hs hc _ _

end

/-! ## ENGINE -/

/-- An outcome that reaches the control part of the invariant has a legal STATUS. -/
theorem statusOk_of_reaches {r : Result} {t : State} (h : reaches r State.controlOk) (e : r = .next t) : t.statusOk := by
  obtain ⟨u, rfl, control⟩ := h
  cases e
  exact control.1

theorem engineStep_statusOk {s t : State} (h : s.statusOk) (hb : s.state = .busy) (e : engineStep s = .next t) :
    t.statusOk := by
  have clean := State.noError_of_statusOk h (by simp [hb])
  obtain ⟨-, -, -, -, st, pending, accepted, ops⟩ := id h
  obtain ⟨last, notClear⟩ := accepted hb
  cases hp : s.phase with
  | start =>
    have idle : s.st = .idle := not_not.1 (mt st.1 (by simp [hp]))
    have starts : { s with phase := .run }.starts (cmdOp s.cmdl) := ⟨⟨hb, rfl, rfl, last, clean⟩, idle, pending⟩
    rw [engineStep_start hp] at e
    exact statusOk_of_reaches (startStep_controlOk starts notClear) e
  | run =>
    have idle : cmdOp s.cmdl ≠ 1 → s.st = .idle := fun k => not_not.1 (mt st.1 fun ⟨_, _, one⟩ => k one)
    rcases ops hb hp with op | op | op
    · rw [engineStep_inflate hp op] at e
      exact inflateStep_statusOk ⟨⟨hb, hp, op, last.trans op, clean⟩, st.2 ⟨hb, hp, op⟩⟩ pending e
    · rw [engineStep_defilter hp op] at e
      exact exec_decodeFilterType_statusOk h (idle (by simp [op])) clean e
    · rw [engineStep_filter hp op] at e
      exact exec_decodeFilterRow_statusOk h (idle (by simp [op])) clean e

theorem engineTurn_statusOk {s t : State} (h : s.statusOk) (e : engineTurn s = .next t) : t.statusOk := by
  unfold engineTurn at e
  split at e
  · rename_i hb; exact engineStep_statusOk h hb e
  · cases e; exact h

/-! ## One move -/

theorem writeRegister_statusOk {index : BitVec 6} {v : Word} {s t : State} (h : s.statusOk)
    (e : writeRegister index v s = .next t) : t.statusOk := by
  unfold writeRegister at e
  split at e
  · cases e; exact h
  · rename_i hb
    split at e
    · exact statusOk_of_reaches (commandWrite_controlOk v h hb) e
    · cases e; exact (operandWrite_controlOk index v h hb).1

theorem moveStep_statusOk {m : Move} {s t : State} (h : s.statusOk) (e : moveStep m s = .next t) : t.statusOk := by
  cases m with
  | writeReg index v => exact writeRegister_statusOk h e
  | readReg index => cases e; exact h
  | writeMem a v =>
    simp only [moveStep] at e
    split at e <;> cases e
    exact h
  | readMem a =>
    simp only [moveStep] at e
    split at e <;> cases e
    exact h
  | poll =>
    simp only [moveStep] at e
    split at e
    · rename_i hb
      have polled : { s with hostRead := s.statusWord, moves := .poll :: s.moves }.statusOk := h
      exact engineStep_statusOk polled hb e
    · cases e; exact h
  | engine => exact engineTurn_statusOk h e
  | reset => cases e; exact (resetBlock_controlOk s).1

/-- Settles O57: the turn is ENGINE's or a move, and both keep STATUS legal. -/
theorem stepKeepsStatusLegal : Obligations.StepKeepsStatusLegal := by
  intro s t h e
  obtain ⟨u, hu, rfl⟩ := step_eq_next.1 e
  show u.statusOk
  unfold turn at hu
  split at hu
  · exact engineTurn_statusOk h hu
  · rename_i m ms _
    have taken : { s with moves := ms }.statusOk := h
    exact moveStep_statusOk taken hu

end Sys2Proof.Machine
end

section
/-! SUPPORT. Which registers an instruction leaves alone, by the command whose step it is (R30, R36, R38, R39, R291, R306). -/

namespace Sys2Proof.Machine

/-! ## The command of an instruction -/

/-- The command whose step runs the instruction: a row is DEFILTER's or FILTER's, an element of the stream is INFLATE's. -/
def commandOf : Instr → Op
  | .nop => .nop
  | .defilter | .ftNone | .ftSub | .ftUp | .ftAvg | .ftPaeth | .ftReserved _ => .defilter
  | .filter _ | .filterFt0 | .filterFt1 | .filterFt2 | .filterFt3 | .filterFt4 | .filterFt5 | .filterFt6 | .filterFt7 => .filter
  | .crcReset => .crcReset
  | .crcUpdate => .crcUpdate
  | .crcCheck => .crcCheck
  | .huffBuild tbl => .huffBuild tbl
  | .huffDecode _ => .huffDecode
  | .bitsRead _ => .bitsRead
  | .bitsAlign => .bitsAlign
  | .bitsReset => .bitsReset
  | .cmdReservedC | .cmdReservedD | .cmdReservedE => .reserved
  | .clear => .clear
  | _ => .inflate

section
variable {i : Instr}

theorem commandOf_ne_crcReset (h : i ≠ .crcReset) : commandOf i ≠ .crcReset := by
  unfold commandOf; split <;> first | exact absurd rfl h | nofun

theorem commandOf_ne_crcUpdate (h : i ≠ .crcUpdate) : commandOf i ≠ .crcUpdate := by
  unfold commandOf; split <;> first | exact absurd rfl h | nofun

theorem commandOf_ne_crcCheck (h : i ≠ .crcCheck) : commandOf i ≠ .crcCheck := by
  unfold commandOf; split <;> first | exact absurd rfl h | nofun

theorem writesResult_commandOf (check : i ≠ .crcCheck) (build : ∀ b, i ≠ .huffBuild b) (decode : ∀ b, i ≠ .huffDecode b)
    (read : ∀ n, i ≠ .bitsRead n) : (commandOf i).writesResult = false := by
  unfold commandOf
  split
  all_goals first
    | rfl
    | exact absurd rfl check
    | exact absurd rfl (build _)
    | exact absurd rfl (decode _)
    | exact absurd rfl (read _)

theorem writesSfb_commandOf (defilterRow : formatOf i ≠ .defilterRow) (filterRow : formatOf i ≠ .filterRow)
    (defilter : i ≠ .defilter) (filter : ∀ f, i ≠ .filter f) (ft5 : i ≠ .filterFt5) (ft6 : i ≠ .filterFt6)
    (ft7 : i ≠ .filterFt7) : (commandOf i).writesSfb = false := by
  unfold commandOf
  split
  all_goals first
    | rfl
    | exact absurd rfl defilterRow
    | exact absurd rfl filterRow
    | exact absurd rfl defilter
    | exact absurd rfl (filter _)
    | exact absurd rfl ft5
    | exact absurd rfl ft6
    | exact absurd rfl ft7

end

/-! ## The registers of the other units -/

/-- From `s` to `t`, CRC_STATE, CRC_MATCH, RESULT and the SFB registers are kept, each unless the command `op` writes it. -/
structure State.unitsKept (op : Op) (s t : State) : Prop where
  crcState : op ≠ .crcReset → op ≠ .crcUpdate → t.crcState = s.crcState
  crcMatch : op ≠ .crcCheck → t.crcMatch = s.crcMatch
  result : op.writesResult = false → t.result = s.result
  sfb : op.writesSfb = false → t.sfbRow = s.sfbRow ∧ t.sfbFt = s.sfbFt

/-- A step that writes none of these registers. -/
theorem unitsKept_of_eq {op : Op} {s t : State} (crcState : t.crcState = s.crcState) (crcMatch : t.crcMatch = s.crcMatch)
    (result : t.result = s.result) (sfbRow : t.sfbRow = s.sfbRow) (sfbFt : t.sfbFt = s.sfbFt) : s.unitsKept op t :=
  ⟨fun _ _ => crcState, fun _ => crcMatch, fun _ => result, fun _ => ⟨sfbRow, sfbFt⟩⟩

theorem cursorOnly_unitsKept {op : Op} {s t : State} (h : s.cursorOnly t) : s.unitsKept op t := by
  unfold State.cursorOnly at h; rw [h]; exact unitsKept_of_eq rfl rfl rfl rfl rfl

theorem State.unitsKept.trans {op : Op} {s t u : State} (h : s.unitsKept op t) (k : t.unitsKept op u) : s.unitsKept op u where
  crcState a b := (k.crcState a b).trans (h.crcState a b)
  crcMatch a := (k.crcMatch a).trans (h.crcMatch a)
  result a := (k.result a).trans (h.result a)
  sfb a := ⟨(k.sfb a).1.trans (h.sfb a).1, (k.sfb a).2.trans (h.sfb a).2⟩

theorem drawTbl_unitsKept (op : Op) (tbl : BitVec 2) (s : State) : s.unitsKept op (drawTbl tbl s) := by
  unfold drawTbl
  split <;> exact unitsKept_of_eq rfl rfl rfl rfl rfl

theorem drawAfterError_unitsKept (op : Op) (s : State) : s.unitsKept op (drawAfterError op s) := by
  cases op with
  | inflate =>
    have dbd : s.unitsKept .inflate (drawDbd (drawOut (drawCursor s))) := unitsKept_of_eq rfl rfl rfl rfl rfl
    exact ((dbd.trans (drawTbl_unitsKept _ 2 _)).trans (drawTbl_unitsKept _ 1 _)).trans (drawTbl_unitsKept _ 0 _)
  | huffBuild tbl =>
    have result : s.unitsKept (.huffBuild tbl) (drawResult s) :=
      ⟨fun _ _ => rfl, fun _ => rfl, nofun, fun _ => ⟨rfl, rfl⟩⟩
    exact result.trans (drawTbl_unitsKept _ tbl _)
  | crcCheck | huffDecode | bitsRead => exact ⟨fun _ _ => rfl, fun _ => rfl, nofun, fun _ => ⟨rfl, rfl⟩⟩
  | defilter | filter => exact ⟨fun _ _ => rfl, fun _ => rfl, fun _ => rfl, nofun⟩
  | nop | crcReset | crcUpdate | bitsAlign | bitsReset | reserved | clear => exact unitsKept_of_eq rfl rfl rfl rfl rfl

/-- An error writes what the failing command may write, and no other of these registers (R306). -/
theorem raise_unitsKept (op : Op) (d : ErrDetail) (p : ErrPos) (s : State) : s.unitsKept op (raise op d p s) :=
  have ⟨crcState, crcMatch, result, sfb⟩ := drawAfterError_unitsKept op s
  ⟨crcState, crcMatch, result, sfb⟩

theorem ElementOutcome.unitsKept {s t : State} (h : ElementOutcome s t) : s.unitsKept .inflate t := by
  cases h with
  | raises d => exact raise_unitsKept _ _ _ _
  | goesOn only | done only => rw [only]; exact unitsKept_of_eq rfl rfl rfl rfl rfl

theorem rowDone_unitsKept {op : Op} (h : op.writesSfb = true) (n : Nat) (m : List Host.Cell) (s : State) :
    s.unitsKept op (rowDone n m s) := by
  unfold rowDone
  split <;> exact ⟨fun _ _ => rfl, fun _ => rfl, fun _ => rfl, by simp [h]⟩

theorem rowsStart_unitsKept {op : Op} (h : op.writesSfb = true) (s : State) : s.unitsKept op (rowsStart s) := by
  unfold rowsStart
  split <;> exact ⟨fun _ _ => rfl, fun _ => rfl, fun _ => rfl, by simp [h]⟩

/-! ## The commands -/

section
variable {s t : State}

theorem execDefilter_unitsKept (h : execDefilter s = .next t) : s.unitsKept .defilter t := by
  unfold execDefilter at h
  repeat' split at h
  · cases h; exact raise_unitsKept _ _ _ _
  · cases h; exact rowsStart_unitsKept rfl s
  · cases h; exact raise_unitsKept _ _ _ _

theorem execFilter_unitsKept {ft : BitVec 3} (h : execFilter ft s = .next t) : s.unitsKept .filter t := by
  unfold execFilter at h
  repeat' split at h
  · cases h; exact raise_unitsKept _ _ _ _
  · cases h; exact raise_unitsKept _ _ _ _
  · cases h
    have type : s.unitsKept .filter { s with sfbFt := ft } := ⟨fun _ _ => rfl, fun _ => rfl, fun _ => rfl, nofun⟩
    exact type.trans (rowsStart_unitsKept rfl _)
  · cases h; exact raise_unitsKept _ _ _ _

theorem execInflate_unitsKept (h : execInflate s = .next t) : s.unitsKept .inflate t := by
  unfold execInflate at h
  split at h
  · cases h; exact unitsKept_of_eq rfl rfl rfl rfl rfl
  · cases h; exact raise_unitsKept _ _ _ _

theorem execCrcUpdate_unitsKept (h : execCrcUpdate s = .next t) : s.unitsKept .crcUpdate t := by
  unfold execCrcUpdate at h
  split at h
  · cases h; exact ⟨nofun, fun _ => rfl, fun _ => rfl, fun _ => ⟨rfl, rfl⟩⟩
  · cases h; exact raise_unitsKept _ _ _ _

theorem execCrcCheck_unitsKept (h : execCrcCheck s = .next t) : s.unitsKept .crcCheck t := by
  unfold execCrcCheck at h
  split at h
  · cases h; exact ⟨fun _ _ => rfl, nofun, nofun, fun _ => ⟨rfl, rfl⟩⟩
  · cases h; exact raise_unitsKept _ _ _ _

/-- Completing with a new RESULT, by a command that writes it. -/
theorem complete_result_unitsKept {op : Op} (h : op.writesResult = true) (v : Word) {u : State} (k : s.unitsKept op u) :
    s.unitsKept op (complete { u with result := v }) :=
  ⟨k.crcState, k.crcMatch, by simp [h], k.sfb⟩

theorem setTable_unitsKept (op : Op) (tbl : BitVec 2) (T : Table) : s.unitsKept op (s.setTable tbl T) := by
  unfold State.setTable
  split <;> exact unitsKept_of_eq rfl rfl rfl rfl rfl

theorem execHuffBuild_unitsKept {tbl : BitVec 2} (h : execHuffBuild tbl s = .next t) : s.unitsKept (.huffBuild tbl) t := by
  unfold execHuffBuild at h
  split at h
  · cases h; exact raise_unitsKept _ _ _ _
  · cases h; exact complete_result_unitsKept rfl _ (setTable_unitsKept _ _ _)

theorem execHuffDecode_unitsKept {tbl : BitVec 2} (h : execHuffDecode tbl s = .next t) : s.unitsKept .huffDecode t := by
  unfold execHuffDecode at h
  repeat' split at h
  · rename_i e
    cases h
    exact complete_result_unitsKept rfl _ (cursorOnly_unitsKept (decodeSym_cursorOnly e))
  all_goals cases h; exact raise_unitsKept _ _ _ _

theorem execBitsRead_unitsKept {n : BitVec 6} (h : execBitsRead n s = .next t) : s.unitsKept .bitsRead t := by
  unfold execBitsRead at h
  repeat' split at h
  · rename_i e
    cases h
    exact complete_result_unitsKept rfl _ (cursorOnly_unitsKept (readBits_cursorOnly e))
  all_goals cases h; exact raise_unitsKept _ _ _ _

/-- Every instruction keeps the registers that its command does not write, in every state (R291). -/
theorem exec_unitsKept {i : Instr} (h : exec i s = .next t) : s.unitsKept (commandOf i) t := by
  cases i
  case inflate => exact execInflate_unitsKept h
  case defilter => exact execDefilter_unitsKept h
  case filter => exact execFilter_unitsKept h
  case crcReset => cases h; exact ⟨nofun, fun _ => rfl, fun _ => rfl, fun _ => ⟨rfl, rfl⟩⟩
  case crcUpdate => exact execCrcUpdate_unitsKept h
  case crcCheck => exact execCrcCheck_unitsKept h
  case huffBuild => exact execHuffBuild_unitsKept h
  case huffDecode => exact execHuffDecode_unitsKept h
  case bitsRead => exact execBitsRead_unitsKept h
  case nop | bitsAlign | bitsReset | clear => cases h; exact unitsKept_of_eq rfl rfl rfl rfl rfl
  case cmdReservedC | cmdReservedD | cmdReservedE | ftReserved | filterFt5 | filterFt6 | filterFt7 =>
    cases h; exact raise_unitsKept _ _ _ _
  case ftNone | ftSub | ftUp | ftAvg | ftPaeth | filterFt0 | filterFt1 | filterFt2 | filterFt3 | filterFt4 =>
    cases h; exact rowDone_unitsKept rfl _ _ s
  all_goals exact (exec_elementOutcome rfl h).unitsKept

end

/-- Settles O53: the units' registers by the command of the instruction, the operand registers by `exec_fixedPart`. -/
theorem registersHaveTheirWriters : Obligations.RegistersHaveTheirWriters := by
  intro i s t h
  have kept := exec_unitsKept h
  have operands := exec_fixedPart h
  simp only [State.fixedPart, Prod.mk.injEq] at operands
  obtain ⟨⟨cfg, inBase, inLen, outBase, outCap, width, height, huffN⟩, cmdl, -⟩ := operands
  refine ⟨fun reset update => ?_, fun check => ?_, fun check build decode read => ?_, fun d f d' f' f5 f6 f7 => ?_, cfg, inBase,
    inLen, outBase, outCap, width, height, huffN, cmdl⟩
  · exact kept.crcState (commandOf_ne_crcReset reset) (commandOf_ne_crcUpdate update)
  · exact kept.crcMatch (commandOf_ne_crcCheck check)
  · exact kept.result (writesResult_commandOf check build decode read)
  · exact kept.sfb (writesSfb_commandOf d f d' f' f5 f6 f7)

end Sys2Proof.Machine
end

section
/-! SUPPORT. The host's registers: the CMD fields, the register map, STATUS as a word, register accesses, and the values after
reset (R20 to R33, R50). -/

namespace Sys2Proof.Machine

/-! ## The fields of a CMD word (R21) -/

/-- The bits of OP, TBL, NBITS and FTYPE. -/
def cmdMask : Word := 0x00073F3F

/-- A field whose bits the mask holds reads the same in the masked word. -/
theorem extractLsb'_cmdMask {start n : Nat} (h : cmdMask.extractLsb' start n = BitVec.allOnes n) (w : Word) :
    (w &&& cmdMask).extractLsb' start n = w.extractLsb' start n := by
  rw [BitVec.extractLsb'_and, h, BitVec.and_allOnes]

theorem decodeCommand_cmdMask (w : Word) : decodeCommand (w &&& cmdMask) = decodeCommand w := by
  have op : cmdOp (w &&& cmdMask) = cmdOp w := extractLsb'_cmdMask (by decide) w
  have tbl : cmdTbl (w &&& cmdMask) = cmdTbl w := extractLsb'_cmdMask (by decide) w
  have nbits : cmdNbits (w &&& cmdMask) = cmdNbits w := extractLsb'_cmdMask (by decide) w
  have ftype : cmdFtype (w &&& cmdMask) = cmdFtype w := extractLsb'_cmdMask (by decide) w
  simp only [decodeCommand, op, tbl, nbits, ftype]

/-- Settles O4: both words decode as their masked word does. -/
theorem commandBitsOutsideFieldsIgnored : Obligations.CommandBitsOutsideFieldsIgnored := by
  intro w v h
  have masked : w &&& cmdMask = v &&& cmdMask := h
  rw [← decodeCommand_cmdMask w, masked, decodeCommand_cmdMask]

/-! ## The register map (R20 to R32) -/

/-- The registers in the order of their offsets. -/
def State.registerMap (s : State) : List Word :=
  [0, s.statusWord, s.cfg.setWidth 32, s.inBase, s.inLen, s.outBase, s.outCap, s.width, s.height, s.huffN.setWidth 32,
    s.outLen, s.inPos, s.bitCnt.setWidth 32, s.result, s.crcValue, s.errByte, s.errBit.setWidth 32]

theorem regValue_eq_registerMap (s : State) (index : BitVec 6) : s.regValue index = s.registerMap.getD index.toNat 0 := by
  unfold State.regValue
  generalize index.toNat = n
  match n with
  | 0 | 1 | 2 | 3 | 4 | 5 | 6 | 7 | 8 | 9 | 10 | 11 | 12 | 13 | 14 | 15 | 16 | _ + 17 => rfl

/-- The offsets that are not read-only are the first ten of the map, and those past its end. -/
theorem registerMap_of_not_readOnly (s : State) {n : Nat} (h : n < 10 ∨ 16 < n) :
    s.registerMap.getD n 0 = (s.registerMap.take 10).getD n 0 := by
  match n, h with
  | 0, _ | 1, _ | 2, _ | 3, _ | 4, _ | 5, _ | 6, _ | 7, _ | 8, _ | 9, _ | _ + 17, _ => rfl
  | 10, h | 11, h | 12, h | 13, h | 14, h | 15, h | 16, h => omega

theorem regRead_of_not_busy {s : State} (h : s.state ≠ .busy) (index : BitVec 6) : s.regRead index = s.regValue index := by
  simp [State.regRead, h]

/-- While BUSY, CMD, STATUS, CFG, the operand registers and the unused offsets read as at any time (R33 (c)). -/
theorem regRead_of_not_readOnly (s : State) {index : BitVec 6} (h : index.toNat < 10 ∨ 16 < index.toNat) :
    s.regRead index = s.regValue index := if_neg (by omega)

/-! ## STATUS as a word (R23) -/

theorem toNat_append_eq_add {m n : Nat} (x : BitVec m) (y : BitVec n) : (x ++ y).toNat = x.toNat * 2 ^ n + y.toNat := by
  rw [BitVec.toNat_append, ← Nat.shiftLeft_add_eq_or_of_lt y.isLt, Nat.shiftLeft_eq]

theorem statusWord_toNat (s : State) :
    s.statusWord.toNat =
      s.state.code.toNat + 4 * s.crcMatch.toNat + 16 * s.errClass.toNat + 256 * s.errDetail.toNat + 65536 * s.lastOp.toNat := by
  simp only [State.statusWord, toNat_append_eq_add, BitVec.toNat_ofBool, BitVec.ofNat_eq_ofNat, BitVec.toNat_ofNat]
  omega

/-- Settles O45: the register map by offset, and the fields of STATUS. -/
theorem registersReadAsMapped : Obligations.RegistersReadAsMapped := by
  intro s i
  refine ⟨rfl, fun idle => ?_, ?_⟩
  · rw [regRead_of_not_busy idle, regValue_eq_registerMap]; rfl
  · rw [statusWord_toNat]
    cases s.state <;> rfl

/-! ## Register accesses (R33) -/

theorem writeRegister_busy {s : State} (h : s.state = .busy) (index : BitVec 6) (v : Word) :
    writeRegister index v s = .next s := if_pos h

theorem writeRegister_operand {s : State} (h : s.state ≠ .busy) {index : BitVec 6} (hi : index ≠ 0) (v : Word) :
    writeRegister index v s = .next (operandWrite index v s) := by
  rw [writeRegister, if_neg h, if_neg hi]

theorem operandWrite_readOnly {index : BitVec 6} (h : index.toNat = 1 ∨ 10 ≤ index.toNat) (v : Word) (s : State) :
    operandWrite index v s = s := by
  unfold operandWrite
  split <;> first | omega | rfl

/-- A read-only register, and an offset without one, ignores a write at all times (R33 (d)). -/
theorem writeRegister_readOnly {index : BitVec 6} (h : index.toNat = 1 ∨ 10 ≤ index.toNat) (v : Word) (s : State) :
    writeRegister index v s = .next s := by
  by_cases busy : s.state = .busy
  · exact writeRegister_busy busy index v
  · have notCmd : index ≠ 0 := by rintro rfl; simp at h
    rw [writeRegister_operand busy notCmd, operandWrite_readOnly h]

/-- Settles O46: what BUSY changes in a register access, and what it does not. -/
theorem registerAccessRules : Obligations.RegisterAccessRules := by
  intro s i v
  refine ⟨fun busy => writeRegister_busy busy i v, fun _ => regRead_of_not_readOnly s (.inl (by decide)),
    fun busy lo hi => if_pos ⟨busy, lo, hi⟩, fun _ other => ?_, fun readOnly => writeRegister_readOnly readOnly v s⟩
  rw [regRead_of_not_readOnly s other, regValue_eq_registerMap, registerMap_of_not_readOnly s other]
  rfl

/-- Settles O47: each write is an operand write, to the register's low bits. -/
theorem operandRegistersAreWritten : Obligations.OperandRegistersAreWritten := by
  intro s v h
  have write : ∀ index : BitVec 6, index ≠ 0 → moveStep (.writeReg index v) s = .next (operandWrite index v s) :=
    fun _ hi => writeRegister_operand h hi v
  have cfg : v.setWidth 2 = v.extractLsb' 0 2 := BitVec.setWidth_eq_extractLsb' (by decide)
  have huffN : v.setWidth 9 = v.extractLsb' 0 9 := BitVec.setWidth_eq_extractLsb' (by decide)
  rw [← cfg, ← huffN]
  exact ⟨write 2 nofun, write 3 nofun, write 4 nofun, write 5 nofun, write 6 nofun, write 7 nofun, write 8 nofun, write 9 nofun⟩

/-! ## Reset (R50) -/

theorem emptyTable_shaped (cap : Nat) : tableShaped cap (emptyTable cap) := ⟨rfl, rfl, List.length_replicate⟩

theorem tableCodes_emptyTable (cap : Nat) : tableCodes (emptyTable cap) = 0 := rfl

theorem reset_shaped : State.reset.shaped :=
  ⟨List.length_replicate, List.length_replicate, emptyTable_shaped _, emptyTable_shaped _, emptyTable_shaped _⟩

/-- Settles O59: the invariant by its parts, and the values of R50. -/
theorem resetMeetsInvariant : Obligations.ResetMeetsInvariant := by
  have inv : State.reset.inv := ⟨reset_mem_wf, reset_shaped, by decide, nofun⟩
  exact ⟨inv, by decide, rfl, by decide, by decide, rfl, rfl, tableCodes_emptyTable _, tableCodes_emptyTable _,
    tableCodes_emptyTable _⟩

end Sys2Proof.Machine
end

section
/-! SUPPORT. One byte of M, the canonical form as a normal form, and the host's accesses to M (R66, R75, R330). -/

namespace Sys2Proof.Machine

/-! ## The canonical form -/

/-- Below every listed address a memory reads as unlisted. -/
theorem Memory.read_below {m : List Host.Cell} {a : Nat} (h : ∀ c ∈ m, a < c.1) : Memory.read m a = Config.unlistedByte := by
  induction m with
  | nil => rfl
  | cons c m ih =>
    obtain ⟨k, v⟩ := c
    have head : k ≠ a := (h (k, v) List.mem_cons_self).ne'
    rw [Memory.read, if_neg head]
    exact ih fun c hc => h c (List.mem_cons_of_mem _ hc)

/-- A canonical memory lists exactly the bytes that do not read as unlisted. -/
theorem Memory.mem_iff_read {m : List Host.Cell} (h : Memory.wf m) (a : Nat) (v : Byte) :
    (a, v) ∈ m ↔ Memory.read m a = v ∧ v ≠ Config.unlistedByte := by
  induction m with
  | nil => exact ⟨nofun, fun ⟨read, listed⟩ => absurd read.symm listed⟩
  | cons c m ih =>
    obtain ⟨k, w⟩ := c
    obtain ⟨rising, entries⟩ := h
    obtain ⟨first, rising⟩ := List.pairwise_cons.1 rising
    obtain ⟨-, listed⟩ := entries (k, w) List.mem_cons_self
    have rest := ih ⟨rising, fun c hc => entries c (List.mem_cons_of_mem _ hc)⟩
    rw [List.mem_cons, Prod.mk.injEq, rest, Memory.read]
    by_cases e : k = a
    · subst e
      rw [if_pos rfl, Memory.read_below first]
      constructor
      · rintro (⟨-, rfl⟩ | ⟨rfl, absent⟩)
        · exact ⟨rfl, listed⟩
        · exact absurd rfl absent
      · rintro ⟨rfl, -⟩; exact .inl ⟨rfl, rfl⟩
    · simp [e, Ne.symm e]

/-- Canonical memories that read alike are the same list (R66). -/
theorem Memory.ext_read {m n : List Host.Cell} (hm : Memory.wf m) (hn : Memory.wf n)
    (h : ∀ a, Memory.read m a = Memory.read n a) : m = n := by
  have irrefl : Std.Irrefl fun p q : Host.Cell => p.1 < q.1 := ⟨fun _ => Nat.lt_irrefl _⟩
  refine hm.1.eq_of_mem_iff hn.1 fun ⟨a, v⟩ => ?_
  rw [Memory.mem_iff_read hm, Memory.mem_iff_read hn, h]

/-- Settles O52: the laws of one byte, and extensionality of the canonical form. -/
theorem memoryReadsWhatWasWritten : Obligations.MemoryReadsWhatWasWritten :=
  ⟨fun m a _ v => ⟨Memory.read_write_same m a v, Memory.read_write_other m v, fun hw ha => Memory.wf_write hw ha v⟩,
    fun _ _ => Memory.ext_read⟩

/-! ## The host's accesses -/

theorem hostMayTouch_iff (s : State) (a : Addr) :
    s.hostMayTouch a = true ↔
      s.state ≠ .busy ∨
        ¬((s.inBase.toNat ≤ a.toNat ∧ a.toNat < s.inBase.toNat + s.inLen.toNat) ∨
          (s.outBase.toNat ≤ a.toNat ∧ a.toNat < s.outBase.toNat + s.outCap.toNat)) := by
  simp only [State.hostMayTouch, State.inIn, State.inOut, Bool.not_eq_true', Bool.and_eq_false_iff, Bool.or_eq_false_iff,
    decide_eq_false_iff_not, not_or]

theorem moveStep_writeMem {s : State} {a : Addr} (h : s.hostMayTouch a = true) (v : Byte) :
    moveStep (.writeMem a v) s = .next (s.memWrite a.toNat v) := if_pos h

theorem moveStep_readMem {s : State} {a : Addr} (h : s.hostMayTouch a = true) :
    moveStep (.readMem a) s = .next { s with hostRead := (s.memRead a.toNat).setWidth 32 } := if_pos h

theorem moveStep_writeMem_refused {s : State} {a : Addr} (h : ¬ s.hostMayTouch a = true) (v : Byte) :
    moveStep (.writeMem a v) s = .refused .windowAccessWhileBusy := if_neg h

theorem moveStep_readMem_refused {s : State} {a : Addr} (h : ¬ s.hostMayTouch a = true) :
    moveStep (.readMem a) s = .refused .windowAccessWhileBusy := if_neg h

/-- Settles O50: what the host may touch, and the byte written there. -/
theorem hostAccessToWindowsWhileBusy : Obligations.HostAccessToWindowsWhileBusy := by
  intro s a v
  refine ⟨fun busy inside => ?_, fun allowed => ?_⟩
  · have refused : ¬ s.hostMayTouch a = true := by
      rw [hostMayTouch_iff]
      rintro (idle | outside)
      · exact idle busy
      · exact outside inside
    exact ⟨moveStep_writeMem_refused refused v, moveStep_readMem_refused refused⟩
  · have touch := (hostMayTouch_iff s a).2 allowed
    refine ⟨⟨_, moveStep_writeMem touch v, ?_, fun b hb => ?_, rfl⟩, moveStep_readMem touch⟩
    · rw [memRead_memWrite, if_pos rfl]
    · rw [memRead_memWrite, if_neg hb]

end Sys2Proof.Machine
end

section
/-! SUPPORT. The start step of INFLATE: its outcome by the window checks (R61, R62, R271, R273). -/

namespace Sys2Proof.Machine

theorem execInflate_windows {s : State} (h : s.windowsOk = true) :
    execInflate s =
      .next
        { resetCursor s with
          outLen := 0, bfinal := 0, btype := 0, storedRem := 0, hlit := 0, hdist := 0, hclen := 0, lensIdx := 0, st := .hdr } :=
  if_pos h

theorem execInflate_badWindows {s : State} (h : s.windowsOk = false) :
    execInflate s = .next (raise .inflate .argInvalid noPos s) := if_neg (by simp [h])

/-- Settles O38: by the window check. -/
theorem inflateStarts : Obligations.InflateStarts := fun _ => ⟨execInflate_windows, execInflate_badWindows⟩

end Sys2Proof.Machine
end

section
/-! SUPPORT. Where ENGINE writes M: draws after an error, Emit and Copy, and the rows of DEFILTER and FILTER stay inside OUT
(R61, R65, R138, R165, R240, R248, R306). -/

namespace Sys2Proof.Machine

/-! ## Bytes outside OUT -/

/-- Address `a` lies below OUT or past its end. -/
abbrev State.outsideOut (s : State) (a : Nat) : Prop := a < s.outBase.toNat ∨ s.outBase.toNat + s.outCap.toNat ≤ a

/-- Every byte of M outside OUT is the same in `t` as in `s`. -/
def State.writesOnlyOut (s t : State) : Prop := ∀ a, s.outsideOut a → t.memRead a = s.memRead a

theorem writesOnlyOut_of_mem {s t : State} (h : t.mem = s.mem) : s.writesOnlyOut t := fun a _ =>
  congrArg (Memory.read · a) h

theorem outWindow_of_fixedPart {s t : State} (h : t.fixedPart = s.fixedPart) :
    t.outBase = s.outBase ∧ t.outCap = s.outCap := by
  simp only [State.fixedPart, Prod.mk.injEq] at h
  obtain ⟨⟨-, -, -, outBase, outCap, -⟩, -⟩ := h
  exact ⟨outBase, outCap⟩

theorem State.writesOnlyOut.trans {s t u : State} (h : s.writesOnlyOut t) (fixed : t.fixedPart = s.fixedPart)
    (k : t.writesOnlyOut u) : s.writesOnlyOut u := by
  obtain ⟨outBase, outCap⟩ := outWindow_of_fixedPart fixed
  intro a outside
  refine (k a ?_).trans (h a outside)
  rwa [State.outsideOut, outBase, outCap]

/-- An offset inside OUT whose address does not wrap is not an address outside OUT. -/
theorem ne_windowAddr_of_outside {s : State} {a k : Nat} (ha : s.outsideOut a) (hk : k < s.outCap.toNat)
    (hw : s.outBase.toNat + k < 2 ^ 32) : a ≠ windowAddr s.outBase k := by
  rw [windowAddr_of_lt hw]
  unfold State.outsideOut at ha
  omega

/-! ## Errors -/

theorem drawTbl_mem (tbl : BitVec 2) (s : State) : (drawTbl tbl s).mem = s.mem := by
  unfold drawTbl; split <;> rfl

/-- An error draws the bytes of OUT when its command writes OUT, and keeps M else (R306). -/
theorem raise_mem (op : Op) (d : ErrDetail) (p : ErrPos) (s : State) :
    (raise op d p s).mem = if op.writesOut then drawBytes s.tick s.outBase s.outSize s.mem else s.mem := by
  have draws : (raise op d p s).mem = (drawAfterError op s).mem := rfl
  rw [draws]
  cases op with
  | inflate => simp only [drawAfterError, drawTbl_mem]; rfl
  | huffBuild tbl => simp only [drawAfterError, drawTbl_mem]; rfl
  | nop | defilter | filter | crcReset | crcUpdate | crcCheck | huffDecode | bitsRead | bitsAlign | bitsReset | reserved
  | clear => rfl

theorem raise_writesOnlyOut (op : Op) (d : ErrDetail) (p : ErrPos) (s : State) : s.writesOnlyOut (raise op d p s) := by
  intro a outside
  unfold State.memRead
  rw [raise_mem]
  split
  · refine drawBytes_read fun k hk => ne_windowAddr_of_outside outside ?_ ?_
    · unfold State.outSize at hk; omega
    · unfold State.outSize at hk; omega
  · rfl

/-! ## Elements of INFLATE -/

/-- OUT does not wrap and is not over-full (R61, R65). -/
abbrev State.outRoom (s : State) : Prop :=
  s.outBase.toNat + s.outCap.toNat ≤ 2 ^ 32 ∧ s.outLen.toNat ≤ s.outCap.toNat

/-- An element's part writes M only inside OUT, and leaves OUT not over-full for a part to come. -/
structure State.partWrites (s t : State) : Prop where
  onlyOut : s.writesOnlyOut t
  room : t.pending ≠ .none → t.outLen.toNat ≤ s.outCap.toNat

theorem raise_partWrites (op : Op) (d : ErrDetail) (p : ErrPos) (s : State) : s.partWrites (raise op d p s) :=
  ⟨raise_writesOnlyOut op d p s, fun pending => absurd rfl pending⟩

/-- A part that writes neither M nor OUT_LEN. -/
theorem partWrites_of_same {s t : State} (hr : s.outRoom) (mem : t.mem = s.mem) (outLen : t.outLen = s.outLen) :
    s.partWrites t := ⟨writesOnlyOut_of_mem mem, fun _ => outLen ▸ hr.2⟩

theorem partWrites_of_cursorOnly {s t u : State} (ho : s.cursorOnly t) (h : t.partWrites u) : s.partWrites u := by
  unfold State.cursorOnly at ho
  rw [ho] at h
  exact ⟨h.onlyOut, h.room⟩

/-- What Emit leaves: one byte written inside OUT, and OUT still not over-full (R138). -/
theorem emit_writesOnlyOut {v : Byte} {s t : State} (hr : s.outRoom) (e : emit v s = .ok t) :
    s.writesOnlyOut t ∧ t.outLen.toNat ≤ s.outCap.toNat := by
  obtain ⟨fits, room⟩ := hr
  unfold emit at e
  split at e
  · cases e
  · rename_i full
    cases e
    have less : s.outLen.toNat < s.outCap.toNat := Nat.lt_of_le_of_ne room fun k => full (BitVec.eq_of_toNat_eq k)
    refine ⟨fun a outside => ?_, ?_⟩
    · exact Memory.read_write_other _ _ (ne_windowAddr_of_outside outside less (by omega))
    · show (s.outLen + 1).toNat ≤ s.outCap.toNat
      rw [BitVec.toNat_add]
      exact Nat.le_trans (Nat.mod_le _ _) less

theorem copy_writesOnlyOut {len dist : Nat} {s t : State} (hr : s.outRoom) (e : copy len dist s = .ok t) :
    s.writesOnlyOut t ∧ t.outLen.toNat ≤ s.outCap.toNat := by
  induction len generalizing s with
  | zero => cases e; exact ⟨writesOnlyOut_of_mem rfl, hr.2⟩
  | succ len ih =>
    unfold copy at e
    split at e
    · cases e
    · rename_i u first
      obtain ⟨onlyOut, room⟩ := emit_writesOnlyOut hr first
      have fixed := emit_fixedPart first
      obtain ⟨outBase, outCap⟩ := outWindow_of_fixedPart fixed
      obtain ⟨rest, room'⟩ := ih (s := u) ⟨by rw [outBase, outCap]; exact hr.1, by rw [outCap]; exact room⟩ e
      exact ⟨onlyOut.trans fixed rest, outCap ▸ room'⟩

/-- Output that may raise, then registers: `f` writes neither M nor OUT_LEN. -/
theorem orRaise_map_partWrites {s t : State} {r : Except ErrDetail State} {f : State → State}
    (h : orRaise s (r.map f) = .next t) (hr : ∀ u, r = .ok u → s.writesOnlyOut u ∧ u.outLen.toNat ≤ s.outCap.toNat)
    (mem : ∀ u, (f u).mem = u.mem) (outLen : ∀ u, (f u).outLen = u.outLen) : s.partWrites t := by
  cases r with
  | error d => cases h; exact raise_partWrites _ _ _ _
  | ok u =>
    cases h
    obtain ⟨onlyOut, room⟩ := hr u rfl
    refine ⟨fun a outside => ?_, fun _ => outLen u ▸ room⟩
    rw [State.memRead, mem]
    exact onlyOut a outside

theorem endOfBlock_output (s : State) : (endOfBlock s).mem = s.mem ∧ (endOfBlock s).outLen = s.outLen := by
  unfold endOfBlock; split <;> exact ⟨rfl, rfl⟩

theorem storedByteDone_output (s : State) : (storedByteDone s).mem = s.mem ∧ (storedByteDone s).outLen = s.outLen := by
  unfold storedByteDone
  split
  · exact endOfBlock_output { s with storedRem := s.storedRem - 1 }
  · exact ⟨rfl, rfl⟩

theorem lengthsDone_output (s : State) : (lengthsDone s).mem = s.mem ∧ (lengthsDone s).outLen = s.outLen := by
  unfold lengthsDone; split <;> exact ⟨rfl, rfl⟩

section
variable {s t : State} (hr : s.outRoom)
include hr

theorem endOfBlock_partWrites {u : State} (mem : u.mem = s.mem) (outLen : u.outLen = s.outLen) :
    s.partWrites (endOfBlock u) :=
  have ⟨mem', outLen'⟩ := endOfBlock_output u
  partWrites_of_same hr (mem'.trans mem) (outLen'.trans outLen)

theorem lengthsDone_partWrites {u : State} (mem : u.mem = s.mem) (outLen : u.outLen = s.outLen) :
    s.partWrites (lengthsDone u) :=
  have ⟨mem', outLen'⟩ := lengthsDone_output u
  partWrites_of_same hr (mem'.trans mem) (outLen'.trans outLen)

theorem execStoredHeader_partWrites {len nlen : BitVec 16} (h : execStoredHeader len nlen s = .next t) : s.partWrites t := by
  unfold execStoredHeader at h
  repeat' split at h
  · cases h; exact raise_partWrites _ _ _ _
  · cases h; exact endOfBlock_partWrites hr rfl rfl
  · cases h; exact partWrites_of_same hr rfl rfl

theorem execDynHeader_partWrites {hlit hdist : BitVec 5} {hclen : BitVec 4} (h : execDynHeader hlit hdist hclen s = .next t) :
    s.partWrites t := by
  simp only [execDynHeader] at h
  split at h
  · cases h; exact raise_partWrites _ _ _ _
  · cases h; exact partWrites_of_same hr rfl rfl

theorem execBlkStored_partWrites {f : BitVec 1} (h : execBlkStored f s = .next t) : s.partWrites t := by
  unfold execBlkStored at h
  split at h
  · cases h; exact partWrites_of_same hr rfl rfl
  · cases h; exact raise_partWrites _ _ _ _

theorem runLengths_partWrites {v : BitVec 4} {r : Nat} (h : runLengths v r s = .next t) : s.partWrites t := by
  unfold runLengths at h
  split at h
  · cases h; exact raise_partWrites _ _ _ _
  · cases h; exact lengthsDone_partWrites hr rfl rfl

theorem execClRepeatPrev_partWrites {e : BitVec 2} (h : execClRepeatPrev e s = .next t) : s.partWrites t := by
  unfold execClRepeatPrev at h
  split at h
  · cases h; exact raise_partWrites _ _ _ _
  · exact runLengths_partWrites hr h

theorem distancePart_partWrites {d e : Nat} (h : distancePart d e s = .next t) : s.partWrites t := by
  unfold distancePart at h
  split at h
  · cases h; exact raise_partWrites _ _ _ _
  · exact orRaise_map_partWrites h (fun _ => copy_writesOnlyOut hr) (fun _ => rfl) fun _ => rfl

/-- Every instruction of INFLATE's stream writes M only inside OUT. -/
theorem exec_partWrites {i : Instr} (hi : isStreamFormat (formatOf i) = true) (h : exec i s = .next t) : s.partWrites t := by
  cases i
  case storedHeader => exact execStoredHeader_partWrites hr h
  case storedByte =>
    exact orRaise_map_partWrites h (fun _ => emit_writesOnlyOut hr) (fun u => (storedByteDone_output u).1)
      fun u => (storedByteDone_output u).2
  case lit => exact orRaise_map_partWrites h (fun _ => emit_writesOnlyOut hr) (fun _ => rfl) fun _ => rfl
  case dynHeader => exact execDynHeader_partWrites hr h
  case blkStored => exact execBlkStored_partWrites hr h
  case eob => cases h; exact endOfBlock_partWrites hr rfl rfl
  case clLen => cases h; exact lengthsDone_partWrites hr rfl rfl
  case clRepeatPrev => exact execClRepeatPrev_partWrites hr h
  case clRepeatZero3 | clRepeatZero11 => exact runLengths_partWrites hr h
  case blkReserved | llReserved286 | llReserved287 | distReserved30 | distReserved31 =>
    cases h; exact raise_partWrites _ _ _ _
  all_goals first
    | exact distancePart_partWrites hr h
    | (cases h; exact partWrites_of_same hr rfl rfl)
    | cases hi

theorem runElement_partWrites {elem : Elem} (he : isStreamFormat elem = true) (h : runElement elem s = .next t) :
    s.partWrites t := by
  unfold runElement at h
  split at h
  · rename_i i u e
    have cursor := decode_cursorOnly e
    have room : u.outRoom := by unfold State.cursorOnly at cursor; rw [cursor]; exact hr
    exact partWrites_of_cursorOnly cursor (exec_partWrites room ((formatOf_decode he e).symm ▸ he) h)
  · cases h; exact raise_partWrites _ _ _ _
  · cases h; exact raise_partWrites _ _ _ _
  · cases h

end

theorem runElement_fixedPart {elem : Elem} {s t : State} (h : runElement elem s = .next t) : t.fixedPart = s.fixedPart := by
  unfold runElement at h
  split at h
  · rename_i e; exact (exec_fixedPart h).trans (cursorOnly_fixedPart (decode_cursorOnly e))
  · cases h; exact raise_fixedPart _ _ _ _
  · cases h; exact raise_fixedPart _ _ _ _
  · cases h

/-- The second part of an element writes M only inside OUT (R131, R162). -/
theorem continueElement_writesOnlyOut {s t : State} (hr : s.pending ≠ .none → s.outRoom) (h : continueElement s = .next t) :
    s.writesOnlyOut t := by
  cases pending : s.pending with
  | none => rw [continueElement_none pending] at h; cases h; exact writesOnlyOut_of_mem rfl
  | blockType =>
    rw [continueElement_blockType pending] at h
    have format : isStreamFormat (formatOf (decodeBlockType s.bfinal s.btype)) = true := by
      rw [formatOf_decodeBlockType]; rfl
    exact (exec_partWrites (hr (by simp [pending])) format h).onlyOut
  | distance len =>
    rw [continueElement_distance pending] at h
    exact (runElement_partWrites (hr (by simp [pending])) rfl h).onlyOut

/-- OUT has room for the second part of an element when it had for the first. -/
theorem runElement_outRoom {elem : Elem} {s t : State} (hr : s.outRoom) (he : isStreamFormat elem = true)
    (h : runElement elem s = .next t) (hp : t.pending ≠ .none) : t.outRoom := by
  obtain ⟨outBase, outCap⟩ := outWindow_of_fixedPart (runElement_fixedPart h)
  rw [State.outRoom, outBase, outCap]
  exact ⟨hr.1, (runElement_partWrites hr he h).room hp⟩

theorem inflateStep_writesOnlyOut {s t : State} (hr : s.outRoom) (hp : s.pending = .none) (h : inflateStep s = .next t) :
    s.writesOnlyOut t := by
  cases he : elemOf s.st with
  | none => simp [inflateStep, hp, he] at h
  | some elem =>
    rw [inflateStep_element hp he] at h
    obtain ⟨u, first, second⟩ := andThen_eq_next.1 h
    have start : (markStart s).outRoom := hr
    have format := isStreamFormat_of_elemOf he
    exact State.writesOnlyOut.trans (s := markStart s) (runElement_partWrites start format first).onlyOut
      (runElement_fixedPart first) (continueElement_writesOnlyOut (runElement_outRoom start format first) second)

/-! ## Rows of DEFILTER and FILTER -/

theorem rowDone_mem (n : Nat) (m : List Host.Cell) (s : State) : (rowDone n m s).mem = m := by
  unfold rowDone; split <;> rfl

/-- A row of `n` bytes ends within the `h` rows of its window. -/
theorem row_end_le {n h r : Nat} (hr : r < h) : r * n + n ≤ n * h := by
  rw [← Nat.succ_mul, Nat.mul_comm]
  exact Nat.mul_le_mul_left n hr

section
variable {s t : State}

/-- An address outside OUT is none of a row's in OUT. -/
theorem ne_row_of_outside {inSize n : Nat} (h : s.rowReady inSize n) {a x : Nat} (ha : s.outsideOut a) (hx : x < n) :
    a ≠ windowAddr s.outBase (s.sfbRow.toNat * n + x) := by
  obtain ⟨windows, -, dst, row⟩ := h
  obtain ⟨-, fits, -⟩ := (windowsOk_iff s).1 windows
  have rows := row_end_le (n := n) row
  exact ne_windowAddr_of_outside ha (by omega) (by omega)

theorem defilterRow_writesOnlyOut {pred : Byte → Byte → Byte → Byte} (h : s.rowReady (s.stride + 1) s.stride)
    (e : defilterRow pred s = .next t) : s.writesOnlyOut t := by
  cases e
  intro a outside
  rw [State.memRead, rowDone_mem]
  exact defilterBytes_read fun k hk => ne_row_of_outside h outside (by omega)

theorem filterRow_writesOnlyOut {type : Byte} {pred : Byte → Byte → Byte → Byte} (h : s.rowReady s.stride (s.stride + 1))
    (e : filterRow type pred s = .next t) : s.writesOnlyOut t := by
  cases e
  intro a outside
  rw [State.memRead, rowDone_mem]
  refine (filterBytes_read fun k hk => ?_).trans (Memory.read_write_other _ _ ?_)
  · rw [Nat.add_assoc]; exact ne_row_of_outside h outside (by omega)
  · exact ne_row_of_outside h outside (Nat.zero_lt_succ _)

theorem exec_decodeFilterType_writesOnlyOut {f : Byte} (h : s.rowReady (s.stride + 1) s.stride)
    (e : exec (decodeFilterType f) s = .next t) : s.writesOnlyOut t := by
  unfold decodeFilterType at e
  split at e
  case h_6 => cases e; exact raise_writesOnlyOut _ _ _ _
  all_goals exact defilterRow_writesOnlyOut h e

theorem exec_decodeFilterRow_writesOnlyOut {ft : BitVec 3} (h : s.rowReady s.stride (s.stride + 1))
    (e : exec (decodeFilterRow ft) s = .next t) : s.writesOnlyOut t := by
  unfold decodeFilterRow at e
  split at e
  case h_6 | h_7 | h_8 => cases e; exact raise_writesOnlyOut _ _ _ _
  all_goals exact filterRow_writesOnlyOut h e

end

/-! ## The start steps -/

theorem formatOf_decodeCommand (w : Word) : formatOf (decodeCommand w) = .command := by
  unfold decodeCommand
  split
  case h_4 => unfold decodeFilterStart; split <;> rfl
  all_goals rfl

theorem cursorOnly_mem {s t : State} (h : s.cursorOnly t) : t.mem = s.mem := by
  unfold State.cursorOnly at h; rw [h]

theorem setTable_mem (s : State) (tbl : BitVec 2) (T : Table) : (s.setTable tbl T).mem = s.mem := by
  unfold State.setTable; split <;> rfl

theorem rowsStart_mem (s : State) : (rowsStart s).mem = s.mem := by unfold rowsStart; split <;> rfl

/-- A command's start step writes no byte of M outside OUT, in every state: only an error writes any. -/
theorem exec_command_writesOnlyOut {i : Instr} {s t : State} (hi : formatOf i = .command) (h : exec i s = .next t) :
    s.writesOnlyOut t := by
  cases i
  case inflate | crcUpdate | crcCheck =>
    simp only [exec, execInflate, execCrcUpdate, execCrcCheck] at h
    split at h <;> cases h
    · exact writesOnlyOut_of_mem rfl
    · exact raise_writesOnlyOut _ _ _ _
  case defilter =>
    simp only [exec, execDefilter] at h
    repeat' split at h
    · cases h; exact raise_writesOnlyOut _ _ _ _
    · cases h; exact writesOnlyOut_of_mem (rowsStart_mem s)
    · cases h; exact raise_writesOnlyOut _ _ _ _
  case filter ft =>
    simp only [exec, execFilter] at h
    repeat' split at h
    · cases h; exact raise_writesOnlyOut _ _ _ _
    · cases h; exact raise_writesOnlyOut _ _ _ _
    · cases h; exact writesOnlyOut_of_mem (rowsStart_mem { s with sfbFt := ft })
    · cases h; exact raise_writesOnlyOut _ _ _ _
  case huffBuild tbl =>
    simp only [exec, execHuffBuild] at h
    split at h
    · cases h; exact raise_writesOnlyOut _ _ _ _
    · cases h; exact writesOnlyOut_of_mem (setTable_mem s _ _)
  case huffDecode tbl =>
    simp only [exec, execHuffDecode] at h
    repeat' split at h
    · rename_i e; have mem := cursorOnly_mem (decodeSym_cursorOnly e); cases h; exact writesOnlyOut_of_mem mem
    all_goals cases h; exact raise_writesOnlyOut _ _ _ _
  case bitsRead n =>
    simp only [exec, execBitsRead] at h
    repeat' split at h
    · rename_i e; have mem := cursorOnly_mem (readBits_cursorOnly e); cases h; exact writesOnlyOut_of_mem mem
    all_goals cases h; exact raise_writesOnlyOut _ _ _ _
  case nop | crcReset | bitsAlign | bitsReset | clear => cases h; exact writesOnlyOut_of_mem rfl
  case cmdReservedC | cmdReservedD | cmdReservedE | filterFt5 | filterFt6 | filterFt7 =>
    cases h; exact raise_writesOnlyOut _ _ _ _
  all_goals cases hi

/-- Settles O54: a start step, an element of INFLATE, or a row. -/
theorem engineWritesOnlyOut : Obligations.EngineWritesOnlyOut := by
  intro s t h hb e
  show s.writesOnlyOut t
  obtain ⟨-, -, ⟨-, -, -, -, -, pending, -, ops⟩, running⟩ := h
  cases hp : s.phase with
  | start =>
    rw [engineStep_start hp] at e
    exact (exec_command_writesOnlyOut (formatOf_decodeCommand _) e :)
  | run =>
    obtain ⟨inflate, defilter, filter⟩ := running hb hp
    rcases ops hb hp with op | op | op
    · obtain ⟨windows, -, room, -⟩ := inflate op
      obtain ⟨-, fits, -⟩ := (windowsOk_iff s).1 windows
      rw [engineStep_inflate hp op] at e
      exact inflateStep_writesOnlyOut ⟨fits, room⟩ pending e
    · rw [engineStep_defilter hp op] at e
      exact exec_decodeFilterType_writesOnlyOut (defilter op) e
    · rw [engineStep_filter hp op] at e
      exact exec_decodeFilterRow_writesOnlyOut (filter op).1 e

end Sys2Proof.Machine
end

section
/-! SUPPORT. Two sources that read alike decode alike (R80, R89, R101): the decoder sees its source only through its reads. -/

namespace Sys2Proof.Machine

/-- The outcomes of two reads agree: the same error, or the same value and sources related by `R`. -/
inductive ReadsAlike {σ τ α : Type} (R : σ → τ → Prop) : Except DecodeError (α × σ) → Except DecodeError (α × τ) → Prop
  | error (d : DecodeError) : ReadsAlike R (.error d) (.error d)
  | ok (a : α) {x : σ} {y : τ} (h : R x y) : ReadsAlike R (.ok (a, x)) (.ok (a, y))

/-- From related sources, every read of a width that the encodings have fails on both, or gives the same value on both and
leaves them related; so does aligning (R101, R102). -/
structure SourcesAlike {σ τ : Type} (src : BitSource σ) (src' : BitSource τ) (R : σ → τ → Prop) : Prop where
  read : ∀ {n x y}, 1 ≤ n → n ≤ 32 → R x y →
    (src.read n x = none ∧ src'.read n y = none) ∨
      ∃ v x' y', src.read n x = some (v, x') ∧ src'.read n y = some (v, y') ∧ R x' y'
  align : ∀ {x y}, R x y → R (src.align x) (src'.align y)

section
variable {σ τ : Type} {R : σ → τ → Prop}

theorem ReadsAlike.cases {α : Type} {r : Except DecodeError (α × σ)} {r' : Except DecodeError (α × τ)} (h : ReadsAlike R r r') :
    (∃ d, r = .error d ∧ r' = .error d) ∨ ∃ a x y, r = .ok (a, x) ∧ r' = .ok (a, y) ∧ R x y := by
  cases h with
  | error d => exact .inl ⟨d, rfl, rfl⟩
  | ok a h => exact .inr ⟨a, _, _, rfl, rfl, h⟩

theorem ReadsAlike.map {α β : Type} {r : Except DecodeError (α × σ)} {r' : Except DecodeError (α × τ)} (f : α → β)
    (h : ReadsAlike R r r') : ReadsAlike R (r.map fun p => (f p.1, p.2)) (r'.map fun p => (f p.1, p.2)) := by
  cases h with
  | error d => exact .error d
  | ok a h => exact .ok (f a) h

variable {src : BitSource σ} {src' : BitSource τ} (hS : SourcesAlike src src' R)
include hS

theorem readField_alike (n : Nat) {x : σ} {y : τ} (hn : 1 ≤ n) (hn' : n ≤ 32) (h : R x y) :
    ReadsAlike R (readField src n x) (readField src' n y) := by
  unfold readField
  rcases hS.read hn hn' h with ⟨e, e'⟩ | ⟨v, x', y', e, e', h'⟩
  · rw [e, e']; exact .error _
  · rw [e, e']; exact .ok _ h'

theorem readExtra_alike {n : Nat} {x : σ} {y : τ} (hn : n ≤ 32) (h : R x y) :
    ReadsAlike R (readExtra src n x) (readExtra src' n y) := by
  unfold readExtra
  split
  · exact .ok _ h
  · rcases hS.read (by omega) hn h with ⟨e, e'⟩ | ⟨v, x', y', e, e', h'⟩
    · rw [e, e']; exact .error _
    · rw [e, e']; exact .ok _ h'

theorem readLengths_alike {n : Nat} {x : σ} {y : τ} (h : R x y) :
    ReadsAlike R (readLengths src n x) (readLengths src' n y) := by
  induction n generalizing x y with
  | zero => exact .ok _ h
  | succ n ih =>
    unfold readLengths
    obtain ⟨d, e, e'⟩ | ⟨l, x1, y1, e, e', h1⟩ := (readField_alike hS 3 (by decide) (by decide) h).cases <;>
      simp only [e, e']
    · exact .error d
    obtain ⟨d, e, e'⟩ | ⟨ls, x2, y2, e, e', h2⟩ := (ih h1).cases <;> simp only [e, e']
    · exact .error d
    · exact .ok _ h2

theorem walk_alike {T : Table} {draw fuel L code first index : Nat} {x : σ} {y : τ} (h : R x y) :
    ReadsAlike R (walk src T draw fuel L code first index x) (walk src' T draw fuel L code first index y) := by
  induction fuel generalizing x y L code first index with
  | zero => exact .error _
  | succ fuel ih =>
    unfold walk
    rcases hS.read (n := 1) (by decide) (by decide) h with ⟨e, e'⟩ | ⟨b, x', y', e, e', h'⟩
    · rw [e, e']; exact .error _
    · rw [e, e']
      dsimp only
      split
      · exact .ok _ h'
      · exact ih h'

theorem decodeSym_alike (T : Table) (draw : Nat) {x : σ} {y : τ} (h : R x y) :
    ReadsAlike R (decodeSym src T draw x) (decodeSym src' T draw y) := walk_alike hS h

theorem readHeader_alike {x : σ} {y : τ} (h : R x y) :
    ReadsAlike R (readHeader src x) (readHeader src' y) := by
  unfold readHeader
  obtain ⟨d, e, e'⟩ | ⟨f, x1, y1, e, e', h1⟩ := (readField_alike hS 1 (by decide) (by decide) h).cases <;>
    simp only [e, e']
  · exact .error d
  obtain ⟨d, e, e'⟩ | ⟨b, x2, y2, e, e', h2⟩ := (readField_alike hS 2 (by decide) (by decide) h1).cases <;>
    simp only [e, e']
  · exact .error d
  exact .ok _ h2

theorem decodeStoredHeader_alike {x : σ} {y : τ} (h : R x y) :
    ReadsAlike R (decodeStoredHeader src x) (decodeStoredHeader src' y) := by
  unfold decodeStoredHeader
  obtain ⟨d, e, e'⟩ | ⟨len, x1, y1, e, e', h1⟩ := (readField_alike hS 16 (by decide) (by decide) (hS.align h)).cases <;>
    simp only [e, e']
  · exact .error d
  obtain ⟨d, e, e'⟩ | ⟨nlen, x2, y2, e, e', h2⟩ := (readField_alike hS 16 (by decide) (by decide) h1).cases <;>
    simp only [e, e']
  · exact .error d
  exact .ok _ h2

theorem decodeDynHeader_alike {x : σ} {y : τ} (h : R x y) :
    ReadsAlike R (decodeDynHeader src x) (decodeDynHeader src' y) := by
  unfold decodeDynHeader
  obtain ⟨d, e, e'⟩ | ⟨hlit, x1, y1, e, e', h1⟩ := (readField_alike hS 5 (by decide) (by decide) h).cases <;>
    simp only [e, e']
  · exact .error d
  obtain ⟨d, e, e'⟩ | ⟨hdist, x2, y2, e, e', h2⟩ := (readField_alike hS 5 (by decide) (by decide) h1).cases <;>
    simp only [e, e']
  · exact .error d
  obtain ⟨d, e, e'⟩ | ⟨hclen, x3, y3, e, e', h3⟩ := (readField_alike hS 4 (by decide) (by decide) h2).cases <;>
    simp only [e, e']
  · exact .error d
  exact .ok _ h3

theorem decodeLitLen_alike {c : Ctx} {x : σ} {y : τ} (h : R x y) :
    ReadsAlike R (decodeLitLen src c x) (decodeLitLen src' c y) := by
  unfold decodeLitLen
  obtain ⟨d, e, e'⟩ | ⟨sym, x1, y1, e, e', h1⟩ := (decodeSym_alike hS c.lit c.draw h).cases <;>
    simp only [e, e']
  · exact .error d
  obtain ⟨d, e, e'⟩ | ⟨v, x2, y2, e, e', h2⟩ := (readExtra_alike hS (lext_le sym.toNat) h1).cases <;>
    simp only [e, e']
  · exact .error d
  exact .ok _ h2

theorem decodeDistance_alike {c : Ctx} {x : σ} {y : τ} (h : R x y) :
    ReadsAlike R (decodeDistance src c x) (decodeDistance src' c y) := by
  unfold decodeDistance
  obtain ⟨d, e, e'⟩ | ⟨dist, x1, y1, e, e', h1⟩ := (decodeSym_alike hS c.dist c.draw h).cases <;>
    simp only [e, e']
  · exact .error d
  obtain ⟨d, e, e'⟩ | ⟨v, x2, y2, e, e', h2⟩ := (readExtra_alike hS (dext_le dist.toNat) h1).cases <;>
    simp only [e, e']
  · exact .error d
  exact .ok _ h2

theorem decodeClSymbol_alike {c : Ctx} {x : σ} {y : τ} (h : R x y) :
    ReadsAlike R (decodeClSymbol src c x) (decodeClSymbol src' c y) := by
  unfold decodeClSymbol
  obtain ⟨d, e, e'⟩ | ⟨sym, x1, y1, e, e', h1⟩ := (decodeSym_alike hS c.clen c.draw h).cases <;> simp only [e, e']
  · exact .error d
  split
  · exact .ok _ h1
  split
  · split
    · obtain ⟨d, e, e'⟩ | ⟨v, x2, y2, e, e', h2⟩ := (readField_alike hS 2 (by decide) (by decide) h1).cases <;>
        simp only [e, e']
      · exact .error d
      · exact .ok _ h2
    · exact .ok _ h1
  split
  · obtain ⟨d, e, e'⟩ | ⟨v, x2, y2, e, e', h2⟩ := (readField_alike hS 3 (by decide) (by decide) h1).cases <;>
      simp only [e, e']
    · exact .error d
    · exact .ok _ h2
  split
  · obtain ⟨d, e, e'⟩ | ⟨v, x2, y2, e, e', h2⟩ := (readField_alike hS 7 (by decide) (by decide) h1).cases <;>
      simp only [e, e']
    · exact .error d
    · exact .ok _ h2
  · exact .error _

/-- Every format decodes alike from sources that read alike. -/
theorem decode_alike {elem : Elem} {c : Ctx} {x : σ} {y : τ} (h : R x y) :
    ReadsAlike R (decode src elem c x) (decode src' elem c y) := by
  cases elem with
  | blockHeader => exact (readHeader_alike hS h).map fun p => Instr.blockHeader p.1 p.2
  | blockType => exact (readHeader_alike hS h).map fun p => decodeBlockType p.1 p.2
  | storedHeader => exact decodeStoredHeader_alike hS h
  | storedByte => exact (readField_alike hS 8 (by decide) (by decide) h).map Instr.storedByte
  | dynHeader => exact decodeDynHeader_alike hS h
  | dynClLengths => exact (readLengths_alike hS h).map Instr.dynClLengths
  | clSymbol => exact decodeClSymbol_alike hS h
  | litLen => exact decodeLitLen_alike hS h
  | distance => exact decodeDistance_alike hS h
  | defilterRow => exact (readField_alike hS 8 (by decide) (by decide) h).map decodeFilterType
  | command => exact (readField_alike hS 32 (by decide) (by decide) h).map decodeCommand
  | filterRow => exact (readField_alike hS 32 (by decide) (by decide) h).map fun w => decodeFilterRow (cmdFtype w)

end

end Sys2Proof.Machine
end

section
/-! SUPPORT. States that agree on M inside IN and OUT: what reads inside the windows and writes the same bytes keeps them so
(R64, R66). -/

namespace Sys2Proof.Machine

/-! ## Agreement -/

/-- `s` with another memory. -/
def State.withMem (s : State) (m : List Host.Cell) : State := { s with mem := m }

/-- The memory `m` reads as that of `s` inside IN and OUT. -/
def State.agrees (s : State) (m : List Host.Cell) : Prop := ∀ a, s.inWindows a → Memory.read m a = s.memRead a

theorem sameInWindows_iff (s u : State) : s.sameInWindows u ↔ ∃ m, u = s.withMem m ∧ s.agrees m := by
  constructor
  · rintro ⟨e, reads⟩; exact ⟨u.mem, e, reads⟩
  · rintro ⟨m, rfl, reads⟩; exact ⟨rfl, reads⟩

theorem State.agrees.sameInWindows {s : State} {m : List Host.Cell} (h : s.agrees m) : s.sameInWindows (s.withMem m) :=
  ⟨rfl, h⟩

theorem State.agrees.inByte {s : State} {m : List Host.Cell} (h : s.agrees m) {k : Nat} (hk : k < s.inLen.toNat) :
    (s.withMem m).inByte k = s.inByte k := h _ (.inl ⟨k, hk, rfl⟩)

theorem State.agrees.outByte {s : State} {m : List Host.Cell} (h : s.agrees m) {k : Nat} (hk : k < s.outCap.toNat) :
    (s.withMem m).outByte k = s.outByte k := h _ (.inr ⟨k, hk, rfl⟩)

/-- The same byte written to two memories leaves them alike where they were. -/
theorem Memory.read_write_congr {m n : List Host.Cell} {b : Nat} (h : Memory.read m b = Memory.read n b) (a : Nat) (v : Byte) :
    Memory.read (Memory.write m a v) b = Memory.read (Memory.write n a v) b := by
  rw [Memory.read_write, Memory.read_write, h]

/-- What `f` does depends on M only inside the windows, and it writes the same bytes. -/
def KeepsSame (f : State → State) : Prop := ∀ s u, s.sameInWindows u → (f s).sameInWindows (f u)

theorem keepsSame_of_agrees {f : State → State} (hf : ∀ s m, s.agrees m → (f s).sameInWindows (f (s.withMem m))) :
    KeepsSame f := by
  intro s u h
  obtain ⟨m, rfl, agrees⟩ := (sameInWindows_iff s u).1 h
  exact hf s m agrees

/-- Two choices by the same condition are related when both branches are. -/
theorem rel_ite {α β : Type} (R : α → β → Prop) {c : Prop} [Decidable c] {a a' : α} {b b' : β} (yes : c → R a b)
    (no : ¬c → R a' b') : R (if c then a else a') (if c then b else b') := by
  by_cases h : c
  · rw [if_pos h, if_pos h]; exact yes h
  · rw [if_neg h, if_neg h]; exact no h

theorem endOfBlock_keepsSame : KeepsSame endOfBlock :=
  keepsSame_of_agrees fun s _ h =>
    rel_ite State.sameInWindows (c := s.bfinal = 1) (fun _ => ⟨rfl, h⟩) fun _ => ⟨rfl, h⟩

theorem storedByteDone_keepsSame : KeepsSame storedByteDone :=
  keepsSame_of_agrees fun s _ h =>
    rel_ite State.sameInWindows (c := s.storedRem - 1 = 0) (fun _ => endOfBlock_keepsSame _ _ ⟨rfl, h⟩) fun _ => ⟨rfl, h⟩

theorem lengthsDone_keepsSame : KeepsSame lengthsDone :=
  keepsSame_of_agrees fun s _ h =>
    rel_ite State.sameInWindows (c := s.lensIdx.toNat = s.lensTotal) (fun _ => ⟨rfl, h⟩) fun _ => ⟨rfl, h⟩

theorem rowsStart_keepsSame : KeepsSame rowsStart :=
  keepsSame_of_agrees fun s _ h =>
    rel_ite State.sameInWindows (c := s.height = 0) (fun _ => ⟨rfl, h⟩) fun _ => ⟨rfl, h⟩

theorem setTable_keepsSame (tbl : BitVec 2) (T : Table) : KeepsSame fun s => s.setTable tbl T := by
  refine keepsSame_of_agrees fun _ _ h => ?_
  unfold State.setTable
  split <;> exact ⟨rfl, h⟩

/-! ## Steps -/

/-- Where `r` answers a next state, so does `r'`, and both agree inside the windows. -/
def StepsAlike (r r' : Result) : Prop := ∀ t, r = .next t → ∃ v, r' = .next v ∧ t.sameInWindows v

theorem stepsAlike_next {t v : State} (h : t.sameInWindows v) : StepsAlike (.next t) (.next v) := by
  rintro _ ⟨⟩; exact ⟨v, rfl, h⟩

theorem stepsAlike_andThen {r r' : Result} {f : State → Result} (h : StepsAlike r r')
    (hf : ∀ t v, r = .next t → t.sameInWindows v → StepsAlike (f t) (f v)) : StepsAlike (andThen r f) (andThen r' f) := by
  intro t e
  obtain ⟨u, first, second⟩ := andThen_eq_next.1 e
  obtain ⟨v, first', same⟩ := h u first
  rw [first']
  exact hf u v first same t second

/-! ## Errors (R306) -/

theorem drawBytes_read_congr {m n : List Host.Cell} {b : Nat} (h : Memory.read m b = Memory.read n b) (tick : Nat) (base : Addr)
    (k : Nat) : Memory.read (drawBytes tick base k m) b = Memory.read (drawBytes tick base k n) b := by
  induction k generalizing m n with
  | zero => exact h
  | succ k ih => exact ih (Memory.read_write_congr h _ _)

theorem KeepsSame.comp {f g : State → State} (hg : KeepsSame g) (hf : KeepsSame f) : KeepsSame fun s => g (f s) :=
  fun s u h => hg _ _ (hf s u h)

theorem drawCursor_keepsSame : KeepsSame drawCursor := keepsSame_of_agrees fun _ _ h => ⟨rfl, h⟩

theorem drawResult_keepsSame : KeepsSame drawResult := keepsSame_of_agrees fun _ _ h => ⟨rfl, h⟩

theorem drawSfb_keepsSame : KeepsSame drawSfb := keepsSame_of_agrees fun _ _ h => ⟨rfl, h⟩

theorem drawDbd_keepsSame : KeepsSame drawDbd := keepsSame_of_agrees fun _ _ h => ⟨rfl, h⟩

theorem drawTbl_keepsSame (tbl : BitVec 2) : KeepsSame (drawTbl tbl) := by
  refine keepsSame_of_agrees fun _ _ h => ?_
  unfold drawTbl
  split <;> exact ⟨rfl, h⟩

theorem drawOut_keepsSame : KeepsSame drawOut :=
  keepsSame_of_agrees fun s _ h => ⟨rfl, fun a ha => drawBytes_read_congr (h a ha) s.tick s.outBase s.outSize⟩

theorem drawAfterError_keepsSame (op : Op) : KeepsSame (drawAfterError op) := by
  cases op with
  | inflate =>
    have dbd := drawDbd_keepsSame.comp (drawOut_keepsSame.comp drawCursor_keepsSame)
    exact (drawTbl_keepsSame 0).comp ((drawTbl_keepsSame 1).comp ((drawTbl_keepsSame 2).comp dbd))
  | defilter | filter => exact drawSfb_keepsSame.comp drawOut_keepsSame
  | crcCheck => exact drawResult_keepsSame
  | huffBuild tbl => exact (drawTbl_keepsSame tbl).comp drawResult_keepsSame
  | huffDecode | bitsRead => exact drawResult_keepsSame.comp drawCursor_keepsSame
  | nop | crcReset | crcUpdate | bitsAlign | bitsReset | reserved | clear => exact fun _ _ h => h

/-- An error draws the same values in both states. -/
theorem raise_keepsSame (op : Op) (d : ErrDetail) (p : ErrPos) : KeepsSame (raise op d p) := by
  intro s u h
  obtain ⟨e, reads⟩ := drawAfterError_keepsSame op s u h
  unfold raise
  rw [e]
  exact ⟨rfl, reads⟩

theorem raise_stepsAlike {op : Op} {d : ErrDetail} {p : ErrPos} {s : State} {m : List Host.Cell} (h : s.agrees m) :
    StepsAlike (.next (raise op d p s)) (.next (raise op d p (s.withMem m))) :=
  stepsAlike_next (raise_keepsSame op d p _ _ h.sameInWindows)

/-! ## Output (R138, R165) -/

/-- Both raise the same error, or both answer states that agree inside the windows. -/
inductive RunsAlike : Except ErrDetail State → Except ErrDetail State → Prop
  | error (d : ErrDetail) : RunsAlike (.error d) (.error d)
  | ok {t v : State} (h : t.sameInWindows v) : RunsAlike (.ok t) (.ok v)

theorem RunsAlike.cases {r r' : Except ErrDetail State} (h : RunsAlike r r') :
    (∃ d, r = .error d ∧ r' = .error d) ∨ ∃ t v, r = .ok t ∧ r' = .ok v ∧ t.sameInWindows v := by
  cases h with
  | error d => exact .inl ⟨d, rfl, rfl⟩
  | ok h => exact .inr ⟨_, _, rfl, rfl, h⟩

theorem orRaise_map_stepsAlike {s : State} {m : List Host.Cell} {r r' : Except ErrDetail State} {f : State → State}
    (hs : s.agrees m) (h : RunsAlike r r') (hf : KeepsSame f) :
    StepsAlike (orRaise s (r.map f)) (orRaise (s.withMem m) (r'.map f)) := by
  cases h with
  | error d => exact raise_stepsAlike hs
  | ok h => exact stepsAlike_next (hf _ _ h)

theorem emit_alike {s : State} {m : List Host.Cell} (h : s.agrees m) (v : Byte) :
    RunsAlike (emit v s) (emit v (s.withMem m)) :=
  rel_ite RunsAlike (c := s.outLen = s.outCap) (fun _ => .error _) fun _ =>
    .ok ⟨rfl, fun a ha => Memory.read_write_congr (h a ha) _ _⟩

/-- Emit leaves OUT with room where it had. -/
theorem emit_outRoom {v : Byte} {s t : State} (hr : s.outRoom) (e : emit v s = .ok t) : t.outRoom := by
  obtain ⟨outBase, outCap⟩ := outWindow_of_fixedPart (emit_fixedPart e)
  rw [State.outRoom, outBase, outCap]
  exact ⟨hr.1, (emit_writesOnlyOut hr e).2⟩

theorem copy_alike {len dist : Nat} {s : State} {m : List Host.Cell} (hr : s.outRoom) (h : s.agrees m) :
    RunsAlike (copy len dist s) (copy len dist (s.withMem m)) := by
  induction len generalizing s m with
  | zero => exact .ok h.sameInWindows
  | succ len ih =>
    by_cases full : s.outLen = s.outCap
    · rw [copy, copy, emit_full _ full, emit_full (s := s.withMem m) _ full]; exact .error _
    · have less : s.outLen.toNat < s.outCap.toNat := Nat.lt_of_le_of_ne hr.2 fun k => full (BitVec.eq_of_toNat_eq k)
      have byte : (s.withMem m).memRead (windowAddr (s.withMem m).outBase ((s.withMem m).outLen.toNat - dist)) =
          s.memRead (windowAddr s.outBase (s.outLen.toNat - dist)) :=
        h.outByte (Nat.lt_of_le_of_lt (Nat.sub_le _ _) less)
      unfold copy
      rw [byte]
      obtain ⟨d, e, e'⟩ | ⟨t, v, e, e', same⟩ :=
        (emit_alike h (s.memRead (windowAddr s.outBase (s.outLen.toNat - dist)))).cases <;> simp only [e, e']
      · exact .error d
      · obtain ⟨m', rfl, agrees⟩ := (sameInWindows_iff t v).1 same
        exact ih (emit_outRoom hr e) agrees

/-! ## The cursor (R101) -/

section
variable {fuel n : Nat} {s : State}

theorem refill_enough (h : ¬ s.bitCnt.toNat < n) : refill fuel n s = some s := by
  cases fuel with
  | zero => exact if_neg h
  | succ fuel => exact if_neg h

theorem refill_zero (h : s.bitCnt.toNat < n) : refill 0 n s = none := if_pos h

theorem refill_exhausted (h : s.bitCnt.toNat < n) (hp : s.inLen.toNat ≤ s.inPos.toNat) : refill (fuel + 1) n s = none := by
  rw [refill, if_pos h, if_pos hp]

theorem refill_fetch (h : s.bitCnt.toNat < n) (hp : ¬ s.inLen.toNat ≤ s.inPos.toNat) :
    refill (fuel + 1) n s = refill fuel n (fetchByte s) := by
  rw [refill, if_pos h, if_neg hp]; rfl

end

theorem fetchByte_withMem {s : State} {m : List Host.Cell} (h : s.agrees m) (hp : s.inPos.toNat < s.inLen.toNat) :
    fetchByte (s.withMem m) = (fetchByte s).withMem m := by
  have byte : (s.withMem m).memRead (windowAddr (s.withMem m).inBase (s.withMem m).inPos.toNat) =
      s.memRead (windowAddr s.inBase s.inPos.toNat) := h.inByte hp
  unfold fetchByte
  rw [byte]
  rfl

/-- Fetching bytes of IN is the same in both states. -/
theorem refill_withMem {s : State} {m : List Host.Cell} (h : s.agrees m) (fuel n : Nat) :
    refill fuel n (s.withMem m) = (refill fuel n s).map (·.withMem m) := by
  induction fuel generalizing s with
  | zero =>
    by_cases few : s.bitCnt.toNat < n
    · rw [refill_zero few, refill_zero (s := s.withMem m) few]; rfl
    · rw [refill_enough few, refill_enough (s := s.withMem m) few]; rfl
  | succ fuel ih =>
    by_cases few : s.bitCnt.toNat < n
    · by_cases exhausted : s.inLen.toNat ≤ s.inPos.toNat
      · rw [refill_exhausted few exhausted, refill_exhausted (s := s.withMem m) few exhausted]; rfl
      · rw [refill_fetch few exhausted, refill_fetch (s := s.withMem m) few exhausted,
          fetchByte_withMem h (Nat.not_le.1 exhausted)]
        exact ih h
    · rw [refill_enough few, refill_enough (s := s.withMem m) few]; rfl

theorem cursorOnly_agrees {s t : State} {m : List Host.Cell} (ho : s.cursorOnly t) (h : s.agrees m) : t.agrees m := by
  unfold State.cursorOnly at ho; rw [ho]; exact h

theorem cursorSource_alike : SourcesAlike cursorSource cursorSource State.sameInWindows where
  read := by
    intro n s u _ _ h
    obtain ⟨m, rfl, agrees⟩ := (sameInWindows_iff s u).1 h
    have same : readBits n (s.withMem m) = (readBits n s).map fun p => (p.1, p.2.withMem m) := by
      unfold readBits
      rw [refill_withMem agrees, Option.map_map, Option.map_map]
      rfl
    cases e : readBits n s with
    | none => exact .inl ⟨e, same.trans (by rw [e]; rfl)⟩
    | some p =>
      refine .inr ⟨p.1, p.2, p.2.withMem m, e, same.trans (by rw [e]; rfl), ?_⟩
      exact (cursorOnly_agrees (readBits_cursorOnly e) agrees).sameInWindows
  align := fun ⟨e, reads⟩ => by rw [e]; exact ⟨rfl, reads⟩

end Sys2Proof.Machine
end

section
/-! SUPPORT. Every step of ENGINE from states that agree inside IN and OUT: elements of INFLATE, rows, and start steps (R64, R66,
R130, R240, R248, R271). -/

namespace Sys2Proof.Machine

/-! ## Elements of INFLATE -/

section
variable {s : State} {m : List Host.Cell} (h : s.agrees m)
include h

theorem execBlkStored_stepsAlike (f : BitVec 1) : StepsAlike (execBlkStored f s) (execBlkStored f (s.withMem m)) :=
  rel_ite StepsAlike (c := s.storedEn = true) (fun _ => stepsAlike_next ⟨rfl, h⟩) fun _ => raise_stepsAlike h

theorem execStoredHeader_stepsAlike (len nlen : BitVec 16) :
    StepsAlike (execStoredHeader len nlen s) (execStoredHeader len nlen (s.withMem m)) :=
  rel_ite StepsAlike (fun _ => raise_stepsAlike h) fun _ =>
    rel_ite StepsAlike (fun _ => stepsAlike_next (endOfBlock_keepsSame _ _ ⟨rfl, h⟩)) fun _ => stepsAlike_next ⟨rfl, h⟩

theorem execDynHeader_stepsAlike (hlit hdist : BitVec 5) (hclen : BitVec 4) :
    StepsAlike (execDynHeader hlit hdist hclen s) (execDynHeader hlit hdist hclen (s.withMem m)) :=
  rel_ite StepsAlike (fun _ => raise_stepsAlike h) fun _ => stepsAlike_next ⟨rfl, h⟩

theorem runLengths_stepsAlike (v : BitVec 4) (r : Nat) : StepsAlike (runLengths v r s) (runLengths v r (s.withMem m)) :=
  rel_ite StepsAlike (c := s.lensTotal < s.lensIdx.toNat + r) (fun _ => raise_stepsAlike h) fun _ =>
    stepsAlike_next (lengthsDone_keepsSame _ _ ⟨rfl, h⟩)

theorem execClRepeatPrev_stepsAlike (e : BitVec 2) :
    StepsAlike (execClRepeatPrev e s) (execClRepeatPrev e (s.withMem m)) :=
  rel_ite StepsAlike (c := s.lensIdx = 0) (fun _ => raise_stepsAlike h) fun _ => runLengths_stepsAlike h _ _

theorem distancePart_stepsAlike (hr : s.outRoom) (d e : Nat) :
    StepsAlike (distancePart d e s) (distancePart d e (s.withMem m)) := by
  have done : KeepsSame matchDone := keepsSame_of_agrees fun _ _ h => ⟨rfl, h⟩
  exact rel_ite StepsAlike (c := s.outLen.toNat < dbase d + e) (fun _ => raise_stepsAlike h) fun _ =>
    orRaise_map_stepsAlike h (copy_alike hr h) done

theorem execLit_stepsAlike (b : Byte) : StepsAlike (execLit b s) (execLit b (s.withMem m)) := by
  have sym : KeepsSame fun t => { t with st := .sym } := keepsSame_of_agrees fun _ _ h => ⟨rfl, h⟩
  exact orRaise_map_stepsAlike h (emit_alike h b) sym

/-- Every instruction of INFLATE's stream, with OUT not over-full. -/
theorem exec_stream_stepsAlike {i : Instr} (hi : isStreamFormat (formatOf i) = true) (hr : s.outRoom) :
    StepsAlike (exec i s) (exec i (s.withMem m)) := by
  cases i
  case storedHeader len nlen => exact execStoredHeader_stepsAlike h len nlen
  case storedByte b => exact orRaise_map_stepsAlike h (emit_alike h b) storedByteDone_keepsSame
  case dynHeader hlit hdist hclen => exact execDynHeader_stepsAlike h hlit hdist hclen
  case blkStored f => exact execBlkStored_stepsAlike h f
  case lit b => exact execLit_stepsAlike h b
  case eob => exact stepsAlike_next (endOfBlock_keepsSame _ _ ⟨rfl, h⟩)
  case clLen l => exact stepsAlike_next (lengthsDone_keepsSame _ _ ⟨rfl, h⟩)
  case clRepeatPrev e => exact execClRepeatPrev_stepsAlike h e
  case clRepeatZero3 | clRepeatZero11 => exact runLengths_stepsAlike h _ _
  case blkReserved | llReserved286 | llReserved287 | distReserved30 | distReserved31 => exact raise_stepsAlike h
  all_goals first
    | exact distancePart_stepsAlike h hr _ _
    | exact stepsAlike_next ⟨rfl, h⟩
    | cases hi

/-- Fetching from the stream and running what was fetched. -/
theorem runElement_stepsAlike {elem : Elem} (he : isStreamFormat elem = true) (hr : s.outRoom) :
    StepsAlike (runElement elem s) (runElement elem (s.withMem m)) := by
  have fetch := decode_alike cursorSource_alike (elem := elem) (c := s.ctx) h.sameInWindows
  have ctx : (s.withMem m).ctx = s.ctx := rfl
  unfold runElement
  rw [ctx]
  obtain ⟨d, e, e'⟩ | ⟨i, t, v, e, e', same⟩ := fetch.cases
  · rw [e, e']
    cases d with
    | truncated | huffNoMatch => exact raise_stepsAlike h
    | noSuchSymbol => exact nofun
  · rw [e, e']
    obtain ⟨m', rfl, agrees⟩ := (sameInWindows_iff t v).1 same
    have cursor := decode_cursorOnly e
    have room : t.outRoom := by unfold State.cursorOnly at cursor; rw [cursor]; exact hr
    exact exec_stream_stepsAlike agrees ((formatOf_decode he e).symm ▸ he) room

theorem continueElement_stepsAlike (hr : s.pending ≠ .none → s.outRoom) :
    StepsAlike (continueElement s) (continueElement (s.withMem m)) := by
  cases pending : s.pending with
  | none =>
    rw [continueElement_none pending, continueElement_none (s := s.withMem m) pending]
    exact stepsAlike_next h.sameInWindows
  | blockType =>
    rw [continueElement_blockType pending, continueElement_blockType (s := s.withMem m) pending]
    have format : isStreamFormat (formatOf (decodeBlockType s.bfinal s.btype)) = true := by
      rw [formatOf_decodeBlockType]; rfl
    exact exec_stream_stepsAlike h format (hr (by simp [pending]))
  | distance len =>
    rw [continueElement_distance pending, continueElement_distance (s := s.withMem m) pending]
    exact runElement_stepsAlike h rfl (hr (by simp [pending]))

theorem inflateStep_stepsAlike (hr : s.outRoom) (hp : s.pending = .none) :
    StepsAlike (inflateStep s) (inflateStep (s.withMem m)) := by
  cases he : elemOf s.st with
  | none => intro t e; simp [inflateStep, hp, he] at e
  | some elem =>
    rw [inflateStep_element hp he, inflateStep_element (s := s.withMem m) hp he]
    have start : (markStart s).agrees m := h
    have room : (markStart s).outRoom := hr
    have format := isStreamFormat_of_elemOf he
    refine stepsAlike_andThen (runElement_stepsAlike start format room) fun t v first same => ?_
    obtain ⟨m', rfl, agrees⟩ := (sameInWindows_iff t v).1 same
    exact continueElement_stepsAlike agrees (runElement_outRoom room format first)

end

/-! ## Rows of DEFILTER and FILTER -/

theorem neighbours_congr {m n : List Host.Cell} {base : Addr} {stride r x : Nat} (hx : x < stride)
    (h : ∀ k, k < r * stride + stride → Memory.read m (windowAddr base k) = Memory.read n (windowAddr base k)) :
    neighbours m base stride r x = neighbours n base stride r x := by
  unfold neighbours
  rw [h _ (by omega), h _ (by omega), h _ (by omega)]

/-- A DEFILTER row computed from two memories that agree on its filtered bytes and on the raw bytes up to its end. -/
theorem defilterBytes_congr {pred : Byte → Byte → Byte → Byte} {i o : Addr} {stride r cnt x a : Nat} {m n : List Host.Cell}
    (hx : x + cnt ≤ stride)
    (src : ∀ y, y < stride →
      Memory.read m (windowAddr i (r * (stride + 1) + 1 + y)) = Memory.read n (windowAddr i (r * (stride + 1) + 1 + y)))
    (raw : ∀ k, k < r * stride + stride → Memory.read m (windowAddr o k) = Memory.read n (windowAddr o k))
    (h : Memory.read m a = Memory.read n a) :
    Memory.read (defilterBytes pred i o stride r cnt x m) a = Memory.read (defilterBytes pred i o stride r cnt x n) a := by
  induction cnt generalizing x m n with
  | zero => exact h
  | succ cnt ih =>
    unfold defilterBytes
    dsimp only
    rw [src x (by omega), neighbours_congr (by omega) raw]
    exact ih (by omega) (fun y hy => Memory.read_write_congr (src y hy) _ _)
      (fun k hk => Memory.read_write_congr (raw k hk) _ _) (Memory.read_write_congr h _ _)

/-- A FILTER row computed from two memories that agree on the raw bytes up to its end. -/
theorem filterBytes_congr {pred : Byte → Byte → Byte → Byte} {i o : Addr} {stride r cnt x a : Nat} {m n : List Host.Cell}
    (hx : x + cnt ≤ stride)
    (raw : ∀ k, k < r * stride + stride → Memory.read m (windowAddr i k) = Memory.read n (windowAddr i k))
    (h : Memory.read m a = Memory.read n a) :
    Memory.read (filterBytes pred i o stride r cnt x m) a = Memory.read (filterBytes pred i o stride r cnt x n) a := by
  induction cnt generalizing x m n with
  | zero => exact h
  | succ cnt ih =>
    unfold filterBytes
    dsimp only
    rw [raw (r * stride + x) (by omega), neighbours_congr (by omega) raw]
    exact ih (by omega) (fun k hk => Memory.read_write_congr (raw k hk) _ _) (Memory.read_write_congr h _ _)

/-- A row ends alike when it was written alike. -/
theorem rowDone_sameInWindows {size : Nat} {s : State} {m n n' : List Host.Cell}
    (h : ∀ a, s.inWindows a → Memory.read n' a = Memory.read n a) :
    (rowDone size n s).sameInWindows (rowDone size n' (s.withMem m)) :=
  rel_ite State.sameInWindows (c := s.sfbRow + 1 = s.height) (fun _ => ⟨rfl, h⟩) fun _ => ⟨rfl, h⟩

section
variable {s : State} {m : List Host.Cell} (h : s.agrees m)
include h

theorem defilterRow_stepsAlike (hr : s.rowReady (s.stride + 1) s.stride) (pred : Byte → Byte → Byte → Byte) :
    StepsAlike (defilterRow pred s) (defilterRow pred (s.withMem m)) := by
  obtain ⟨-, src, dst, row⟩ := hr
  have filtered := (row_end_le row).trans src
  have raw := (row_end_le row).trans dst
  exact stepsAlike_next (rowDone_sameInWindows fun a ha =>
    defilterBytes_congr (Nat.zero_add _).le
      (fun y (hy : y < s.stride) => h.inByte (k := s.sfbRow.toNat * (s.stride + 1) + 1 + y) (by omega))
      (fun k hk => h.outByte (Nat.lt_of_lt_of_le hk raw)) (h a ha))

theorem filterRow_stepsAlike (hr : s.rowReady s.stride (s.stride + 1)) (type : Byte) (pred : Byte → Byte → Byte → Byte) :
    StepsAlike (filterRow type pred s) (filterRow type pred (s.withMem m)) := by
  obtain ⟨-, src, -, row⟩ := hr
  have raw := (row_end_le row).trans src
  exact stepsAlike_next (rowDone_sameInWindows fun a ha =>
    filterBytes_congr (Nat.zero_add _).le
      (fun k hk => Memory.read_write_congr (h.inByte (Nat.lt_of_lt_of_le hk raw)) _ _)
      (Memory.read_write_congr (h a ha) _ _))

theorem exec_decodeFilterType_stepsAlike (hr : s.rowReady (s.stride + 1) s.stride) (f : Byte) :
    StepsAlike (exec (decodeFilterType f) s) (exec (decodeFilterType f) (s.withMem m)) := by
  unfold decodeFilterType
  split
  case h_6 => exact raise_stepsAlike h
  all_goals exact defilterRow_stepsAlike h hr _

theorem exec_decodeFilterRow_stepsAlike (hr : s.rowReady s.stride (s.stride + 1)) (ft : BitVec 3) :
    StepsAlike (exec (decodeFilterRow ft) s) (exec (decodeFilterRow ft) (s.withMem m)) := by
  unfold decodeFilterRow
  split
  case h_6 | h_7 | h_8 => exact raise_stepsAlike h
  all_goals exact filterRow_stepsAlike h hr _ _

/-- The filter byte of the row that is due lies inside IN (R240, R246). -/
theorem filterByte_withMem (hr : s.rowReady (s.stride + 1) s.stride) : (s.withMem m).filterByte = s.filterByte := by
  obtain ⟨-, src, -, row⟩ := hr
  have filtered := (row_end_le row).trans src
  exact h.inByte (k := s.sfbRow.toNat * (s.stride + 1)) (by omega)

end

/-! ## The start steps -/

theorem huffN_le_of_buildError {s : State} {tbl : BitVec 2} (e : buildError tbl s = none) : s.huffN.toNat ≤ s.inLen.toNat := by
  by_contra short
  unfold buildError at e
  rw [if_pos (Nat.not_le.1 short)] at e
  repeat' split at e
  all_goals cases e

/-- A cursor command's end: RESULT is written and the command completes. -/
theorem result_stepsAlike {t v : State} (same : t.sameInWindows v) (r : Word) :
    StepsAlike (.next (complete { t with result := r })) (.next (complete { v with result := r })) := by
  obtain ⟨e, reads⟩ := same
  rw [e]
  exact stepsAlike_next ⟨rfl, reads⟩

section
variable {s : State} {m : List Host.Cell} (h : s.agrees m)
include h

theorem execInflate_stepsAlike : StepsAlike (execInflate s) (execInflate (s.withMem m)) :=
  rel_ite StepsAlike (c := s.windowsOk = true) (fun _ => stepsAlike_next ⟨rfl, h⟩) fun _ => raise_stepsAlike h

/-- After the geometry checks (R246): an error, or the first row. -/
theorem geometry_stepsAlike {src dst : Nat} {op : Op} {f : State → State} (hf : KeepsSame f) :
    StepsAlike
      (match geometryError src dst s with
        | some d => .next (raise op d noPos s)
        | none => .next (f s))
      (match geometryError src dst s with
        | some d => .next (raise op d noPos (s.withMem m))
        | none => .next (f (s.withMem m))) := by
  cases geometryError src dst s with
  | some d => exact raise_stepsAlike h
  | none => exact stepsAlike_next (hf _ _ h.sameInWindows)

theorem execDefilter_stepsAlike : StepsAlike (execDefilter s) (execDefilter (s.withMem m)) :=
  rel_ite StepsAlike (c := s.windowsOk = true) (fun _ => geometry_stepsAlike h rowsStart_keepsSame) fun _ => raise_stepsAlike h

theorem execFilter_stepsAlike (ft : BitVec 3) : StepsAlike (execFilter ft s) (execFilter ft (s.withMem m)) := by
  have type : KeepsSame fun t => { t with sfbFt := ft } := keepsSame_of_agrees fun _ _ h => ⟨rfl, h⟩
  exact rel_ite StepsAlike (c := s.windowsOk = true)
    (fun _ => rel_ite StepsAlike (fun _ => raise_stepsAlike h) fun _ => geometry_stepsAlike h (rowsStart_keepsSame.comp type))
    fun _ => raise_stepsAlike h

theorem crcBytes_withMem {n i : Nat} (hn : i + n ≤ s.inLen.toNat) (c : Word) :
    crcBytes m s.inBase n i c = crcBytes s.mem s.inBase n i c := by
  induction n generalizing i c with
  | zero => rfl
  | succ n ih =>
    have byte : Memory.read m (windowAddr s.inBase i) = Memory.read s.mem (windowAddr s.inBase i) := h.inByte (by omega)
    rw [crcBytes, crcBytes, byte]
    exact ih (by omega) _

theorem execCrcUpdate_stepsAlike : StepsAlike (execCrcUpdate s) (execCrcUpdate (s.withMem m)) := by
  refine rel_ite StepsAlike (c := s.inOk = true) (fun _ => stepsAlike_next ⟨?_, h⟩) fun _ => raise_stepsAlike h
  have crc := crcBytes_withMem h (Nat.le_of_eq (Nat.zero_add s.inLen.toNat)) s.crcState
  show complete { s.withMem m with crcState := crcBytes m s.inBase s.inLen.toNat 0 s.crcState } = _
  rw [crc]
  rfl

theorem expectedCrc_withMem (hl : 4 ≤ s.inLen.toNat) : (s.withMem m).expectedCrc = s.expectedCrc := by
  have byte : ∀ k, k < 4 → (s.withMem m).memRead (windowAddr (s.withMem m).inBase k) = s.memRead (windowAddr s.inBase k) :=
    fun k hk => h.inByte (by omega)
  unfold State.expectedCrc
  rw [byte 0 (by decide), byte 1 (by decide), byte 2 (by decide), byte 3 (by decide)]

theorem execCrcCheck_stepsAlike : StepsAlike (execCrcCheck s) (execCrcCheck (s.withMem m)) := by
  refine rel_ite StepsAlike (c := (s.inOk && decide (4 ≤ s.inLen.toNat)) = true) (fun ok => stepsAlike_next ⟨?_, h⟩)
    fun _ => raise_stepsAlike h
  have crc := expectedCrc_withMem h (of_decide_eq_true ((Bool.and_eq_true ..).mp ok).2)
  rw [crc]
  rfl

theorem buildLengths_withMem (hn : s.huffN.toNat ≤ s.inLen.toNat) : (s.withMem m).buildLengths = s.buildLengths := by
  refine List.map_congr_left fun i hi => congrArg BitVec.toNat (h.inByte ?_)
  exact Nat.lt_of_lt_of_le (List.mem_range.1 hi) hn

/-- HUFF_BUILD raises alike: the lengths are looked at only when IN holds them (R283). -/
theorem buildError_withMem (tbl : BitVec 2) : buildError tbl (s.withMem m) = buildError tbl s := by
  by_cases short : s.inLen.toNat < s.huffN.toNat
  · have short' : (s.withMem m).inLen.toNat < (s.withMem m).huffN.toNat := short
    unfold buildError
    rw [if_pos short, if_pos short']
    rfl
  · unfold buildError
    rw [buildLengths_withMem h (Nat.not_lt.1 short)]
    rfl

theorem execHuffBuild_stepsAlike (tbl : BitVec 2) : StepsAlike (execHuffBuild tbl s) (execHuffBuild tbl (s.withMem m)) := by
  unfold execHuffBuild
  rw [buildError_withMem h]
  cases e : buildError tbl s with
  | some d => exact raise_stepsAlike h
  | none =>
    rw [buildLengths_withMem h (huffN_le_of_buildError e)]
    have same := setTable_keepsSame tbl (s.built tbl s.buildLengths) _ _ h.sameInWindows
    exact result_stepsAlike same _

theorem execHuffDecode_stepsAlike (tbl : BitVec 2) :
    StepsAlike (execHuffDecode tbl s) (execHuffDecode tbl (s.withMem m)) := by
  refine rel_ite StepsAlike (c := (s.inOk && decide (tbl ≠ 3)) = true) (fun _ => ?_) fun _ => raise_stepsAlike h
  have table : (s.withMem m).table tbl = s.table tbl := by unfold State.table; split <;> rfl
  rw [table]
  obtain ⟨d, e, e'⟩ | ⟨sym, t, v, e, e', same⟩ :=
    (decodeSym_alike cursorSource_alike (s.table tbl) s.tick h.sameInWindows).cases
  · have fails : decodeSym cursorSource (s.table tbl) (s.withMem m).tick (s.withMem m) = .error d := e'
    rw [e, fails]
    cases d with
    | truncated | huffNoMatch | noSuchSymbol => exact raise_stepsAlike h
  · have gives : decodeSym cursorSource (s.table tbl) (s.withMem m).tick (s.withMem m) = .ok (sym, v) := e'
    rw [e, gives]
    exact result_stepsAlike same _

theorem execBitsRead_stepsAlike (n : BitVec 6) : StepsAlike (execBitsRead n s) (execBitsRead n (s.withMem m)) := by
  refine rel_ite StepsAlike (c := (s.inOk && decide (1 ≤ n.toNat ∧ n.toNat ≤ 32)) = true) (fun ok => ?_)
    fun _ => raise_stepsAlike h
  obtain ⟨lo, hi⟩ := of_decide_eq_true ((Bool.and_eq_true ..).mp ok).2
  obtain ⟨e, e'⟩ | ⟨b, t, v, e, e', same⟩ := cursorSource_alike.read lo hi h.sameInWindows
  · have fails : readBits n.toNat s = none ∧ readBits n.toNat (s.withMem m) = none := ⟨e, e'⟩
    rw [fails.1, fails.2]
    exact raise_stepsAlike h
  · have gives : readBits n.toNat s = some (b, t) ∧ readBits n.toNat (s.withMem m) = some (b, v) := ⟨e, e'⟩
    rw [gives.1, gives.2]
    exact result_stepsAlike same _

/-- Every command's start step, in every state. -/
theorem exec_command_stepsAlike {i : Instr} (hi : formatOf i = .command) :
    StepsAlike (exec i s) (exec i (s.withMem m)) := by
  cases i
  case inflate => exact execInflate_stepsAlike h
  case defilter => exact execDefilter_stepsAlike h
  case filter ft => exact execFilter_stepsAlike h ft
  case crcUpdate => exact execCrcUpdate_stepsAlike h
  case crcCheck => exact execCrcCheck_stepsAlike h
  case huffBuild tbl => exact execHuffBuild_stepsAlike h tbl
  case huffDecode tbl => exact execHuffDecode_stepsAlike h tbl
  case bitsRead n => exact execBitsRead_stepsAlike h n
  case nop | crcReset | bitsAlign | bitsReset | clear => exact stepsAlike_next ⟨rfl, h⟩
  case cmdReservedC | cmdReservedD | cmdReservedE | filterFt5 | filterFt6 | filterFt7 => exact raise_stepsAlike h
  all_goals cases hi

end

/-- Settles O55: a start step, an element of INFLATE, or a row, each from states that agree inside the windows. -/
theorem engineReadsOnlyWindows : Obligations.EngineReadsOnlyWindows := by
  intro s u t inv hb same e
  obtain ⟨m, rfl, h⟩ := (sameInWindows_iff s u).1 same
  suffices steps : StepsAlike (engineStep s) (engineStep (s.withMem m)) from steps t e
  obtain ⟨-, -, ⟨-, -, -, -, -, pending, -, ops⟩, running⟩ := inv
  cases hp : s.phase with
  | start =>
    rw [engineStep_start hp, engineStep_start (s := s.withMem m) hp]
    have started : { s with phase := .run }.agrees m := h
    exact exec_command_stepsAlike started (formatOf_decodeCommand s.cmdl)
  | run =>
    obtain ⟨inflate, defilter, filter⟩ := running hb hp
    rcases ops hb hp with op | op | op
    · obtain ⟨windows, -, room, -⟩ := inflate op
      obtain ⟨-, fits, -⟩ := (windowsOk_iff s).1 windows
      rw [engineStep_inflate hp op, engineStep_inflate (s := s.withMem m) hp op]
      exact inflateStep_stepsAlike h ⟨fits, room⟩ pending
    · rw [engineStep_defilter hp op, engineStep_defilter (s := s.withMem m) hp op, filterByte_withMem h (defilter op)]
      exact exec_decodeFilterType_stepsAlike h (defilter op) s.filterByte
    · rw [engineStep_filter hp op, engineStep_filter (s := s.withMem m) hp op]
      exact exec_decodeFilterRow_stepsAlike h (filter op).1 s.sfbFt

end Sys2Proof.Machine
end

section
/-! SUPPORT. Reading back what was written (R68, R69, R80, R84, R89, R104): fields, extra bits and Huffman codes at the front of a
bit string. -/

namespace Sys2Proof.Machine

/-! ## Bit strings -/

@[simp] theorem fieldBits_length (n v : Nat) : (fieldBits n v).length = n := by
  induction n generalizing v with
  | zero => rfl
  | succ n ih => simp [fieldBits, ih]

@[simp] theorem codeBits_length (n v : Nat) : (codeBits n v).length = n := by simp [codeBits]

theorem bitsValue_fieldBits (n v : Nat) : bitsValue (fieldBits n v) = v % 2 ^ n := by
  induction n generalizing v with
  | zero => simp [fieldBits, bitsValue, Nat.mod_one]
  | succ n ih =>
    have low : (v % 2 == 1).toNat = v % 2 := by
      rcases Nat.mod_two_eq_zero_or_one v with e | e <;> simp [e]
    rw [fieldBits, bitsValue, ih, low, Nat.pow_succ', Nat.mod_mul]

theorem fieldBits_succ (n v : Nat) : fieldBits (n + 1) v = fieldBits n v ++ [v.testBit n] := by
  induction n generalizing v with
  | zero => simp [fieldBits, Nat.testBit_zero]; rfl
  | succ n ih =>
    rw [fieldBits, ih, Nat.testBit_succ]
    rfl

/-- A code is sent with its most significant bit first (R69). -/
theorem codeBits_succ (n v : Nat) : codeBits (n + 1) v = v.testBit n :: codeBits n v := by
  simp [codeBits, fieldBits_succ]

/-- The front of a code, one bit longer. -/
theorem div_two_pow_eq (v n : Nat) : 2 * (v / 2 ^ (n + 1)) + (v.testBit n).toNat = v / 2 ^ n := by
  have bit : (v.testBit n).toNat = v / 2 ^ n % 2 := Nat.toNat_testBit v n
  rw [bit, Nat.pow_succ, ← Nat.div_div_eq_div_mul]
  omega

/-! ## Fields -/

variable {pos n : Nat} {rest : List Bool}

theorem BitList.read_append (front : List Bool) :
    BitList.read front.length { pos := pos, bits := front ++ rest } =
      some (bitsValue front, { pos := pos + front.length, bits := rest }) := by
  simp [BitList.read]

theorem read_fieldBits (v : Nat) :
    bitListSource.read n { pos := pos, bits := fieldBits n v ++ rest } = some (v % 2 ^ n, { pos := pos + n, bits := rest }) := by
  have front := BitList.read_append (pos := pos) (rest := rest) (fieldBits n v)
  rwa [fieldBits_length, bitsValue_fieldBits] at front

theorem readField_fieldBits (v : Nat) :
    readField bitListSource n { pos := pos, bits := fieldBits n v ++ rest } =
      .ok (BitVec.ofNat n v, { pos := pos + n, bits := rest }) := by
  have value : BitVec.ofNat n (v % 2 ^ n) = BitVec.ofNat n v := BitVec.eq_of_toNat_eq (by simp)
  simp only [readField, read_fieldBits, value]

@[simp] theorem readField_toNat (v : BitVec n) :
    readField bitListSource n { pos := pos, bits := fieldBits n v.toNat ++ rest } =
      .ok (v, { pos := pos + n, bits := rest }) := by rw [readField_fieldBits, BitVec.ofNat_toNat, BitVec.setWidth_eq]

theorem readExtra_fieldBits {v : Nat} (h : v < 2 ^ n) :
    readExtra bitListSource n { pos := pos, bits := fieldBits n v ++ rest } = .ok (v, { pos := pos + n, bits := rest }) := by
  unfold readExtra
  split
  · rename_i zero
    subst zero
    obtain rfl : v = 0 := by simpa using h
    rfl
  · simp only [read_fieldBits, Nat.mod_eq_of_lt h]

theorem readLengths_fieldBits (lens : List (BitVec 3)) :
    readLengths bitListSource lens.length { pos := pos, bits := (lens.flatMap fun l => fieldBits 3 l.toNat) ++ rest } =
      .ok (lens, { pos := pos + 3 * lens.length, bits := rest }) := by
  induction lens generalizing pos with
  | nil => rfl
  | cons l ls ih =>
    simp only [List.length_cons, List.flatMap_cons, List.append_assoc, readLengths, readField_toNat, ih]
    congr 3
    omega

/-- AlignToByte skips the pad bits, whatever they are (R102, R140). -/
theorem align_append {pad : List Bool} (h : pad.length = padLength pos) :
    bitListSource.align { pos := pos, bits := pad ++ rest } = { pos := pos + padLength pos, bits := rest } := by
  simp [bitListSource, BitList.align, ← h]

/-! ## Huffman codes (R112, R114) -/

variable {T : Table} {sym fuel L first index len v : Nat}

/-- A code found from length `L` on: it is one of that length, or it is found among the longer ones. -/
theorem findCode_cases (h : findCode T sym (fuel + 1) L first index = some (len, v)) :
    (len = L ∧ v < 2 ^ L ∧ first ≤ v ∧ v < first + T.count L ∧
        ∃ s, T.symbols[index + (v - first)]? = some s ∧ s.toNat = sym) ∨
      findCode T sym fuel (L + 1) (2 * (first + T.count L)) (index + T.count L) = some (len, v) := by
  unfold findCode at h
  split at h
  · rename_i j found
    split at h
    · rename_i fits
      obtain ⟨rfl, rfl⟩ : L = len ∧ first + j = v := by simpa using h
      obtain ⟨hj, isSym, -⟩ := List.findIdx?_eq_some_iff_getElem.1 found
      simp only [List.length_take, List.length_drop, List.getElem_take, List.getElem_drop, beq_iff_eq] at hj isSym
      refine .inl ⟨rfl, fits, by omega, by omega, T.symbols[index + j], ?_, isSym⟩
      rw [Nat.add_sub_cancel_left]
      exact List.getElem?_eq_getElem (by omega)
    · exact .inr h
  · exact .inr h

/-- Every code found is at least as long as the search's start, fits its length, and comes after the shorter codes (R112, R113). -/
theorem findCode_bounds (h : findCode T sym fuel L first index = some (len, v)) :
    L ≤ len ∧ v < 2 ^ len ∧ first * 2 ^ (len - L) ≤ v := by
  induction fuel generalizing L first index with
  | zero => cases h
  | succ fuel ih =>
    rcases findCode_cases h with ⟨rfl, fits, low, -, -⟩ | h
    · exact ⟨Nat.le_refl _, fits, by simpa using low⟩
    · obtain ⟨longer, fits, low⟩ := ih h
      refine ⟨by omega, fits, ?_⟩
      rw [show len - L = len - (L + 1) + 1 by omega, Nat.pow_succ]
      calc first * (2 ^ (len - (L + 1)) * 2) = 2 * first * 2 ^ (len - (L + 1)) := by ring
        _ ≤ 2 * (first + T.count L) * 2 ^ (len - (L + 1)) := Nat.mul_le_mul_right _ (by omega)
        _ ≤ v := low

/-- The walk follows a code that is found from where it stands to its symbol: it has read the code's front, and the bits of the
code that are left come next (R114). -/
theorem walk_codeBits (draw : Nat) (h : findCode T sym fuel L first index = some (len, v)) :
    ∃ s : BitVec 9, s.toNat = sym ∧
      walk bitListSource T draw fuel L (2 * (v / 2 ^ (len + 1 - L))) first index
          { pos := pos, bits := codeBits (len + 1 - L) v ++ rest } =
        .ok (s, { pos := pos + (len + 1 - L), bits := rest }) := by
  induction fuel generalizing L first index pos with
  | zero => cases h
  | succ fuel ih =>
    obtain ⟨k, rfl⟩ : ∃ k, len = L + k := ⟨len - L, by have := findCode_bounds h; omega⟩
    have left : L + k + 1 - L = k + 1 := by omega
    have bit : bitListSource.read 1 { pos := pos, bits := codeBits (k + 1) v ++ rest } =
        some ((v.testBit k).toNat, { pos := pos + 1, bits := codeBits k v ++ rest }) := by
      rw [codeBits_succ]
      exact BitList.read_append [v.testBit k]
    simp only [left, walk, bit, div_two_pow_eq]
    rcases findCode_cases h with ⟨last, -, low, high, s, at', isSym⟩ | longer
    · obtain rfl : k = 0 := by omega
      have code : v / 2 ^ 0 = v := by simp
      refine ⟨s, isSym, ?_⟩
      rw [code, if_pos high, Table.symbolAt, at']
      rfl
    · obtain ⟨more, -, low⟩ := findCode_bounds longer
      obtain ⟨k, rfl⟩ : ∃ j, k = j + 1 := ⟨k - 1, by omega⟩
      rw [show L + (k + 1) - (L + 1) = k by omega] at low
      have after : first + T.count L ≤ v / 2 ^ (k + 1) := by
        rw [Nat.le_div_iff_mul_le (Nat.two_pow_pos _), Nat.pow_succ]
        calc (first + T.count L) * (2 ^ k * 2) = 2 * (first + T.count L) * 2 ^ k := by ring
          _ ≤ v := low
      obtain ⟨s, isSym, found⟩ := ih (pos := pos + 1) longer
      refine ⟨s, isSym, ?_⟩
      rw [show L + (k + 1) + 1 - (L + 1) = k + 1 by omega] at found
      rw [if_neg (Nat.not_lt.2 after), found]
      congr 3
      omega

/-- DecodeSym reads back the code of a symbol (R112, R114). -/
theorem decodeSym_encodeSym {code : List Bool} (draw : Nat) (h : encodeSym T sym = some code) :
    sym < 2 ^ 9 ∧
      decodeSym bitListSource T draw { pos := pos, bits := code ++ rest } =
        .ok (BitVec.ofNat 9 sym, { pos := pos + code.length, bits := rest }) := by
  obtain ⟨⟨len, v⟩, found, rfl⟩ := Option.map_eq_some_iff.1 h
  obtain ⟨-, fits, -⟩ := findCode_bounds found
  obtain ⟨s, rfl, walked⟩ := walk_codeBits (pos := pos) (rest := rest) draw found
  rw [Nat.add_sub_cancel, Nat.div_eq_of_lt fits] at walked
  refine ⟨s.isLt, ?_⟩
  rw [codeBits_length, BitVec.ofNat_toNat, BitVec.setWidth_eq]
  exact walked

end Sys2Proof.Machine
end

section
/-! SUPPORT. Decoding what was encoded, format by format (R80 to R97): the operands of an instruction are the symbol, the extra
value or the word that its encoding writes and its decoder reads. -/

namespace Sys2Proof.Machine

/-! ## Symbols (R85, R86, R164) -/

variable {i : Instr}

/-- A literal/length instruction as its symbol and extra value (R86, R91). -/
theorem litLen_operands (h : formatOf i = .litLen) :
    ∃ sym e, sym < 288 ∧ e < 2 ^ lext sym ∧ litLenInstr sym e = i ∧ ∀ c pos, encode c pos i = encodeLitLen c sym e := by
  cases i
  case lit b =>
    have byte := b.isLt
    have noExtra : lext b.toNat = 0 := by rw [lext, Nat.sub_eq_zero_of_le (by omega)]; rfl
    refine ⟨b.toNat, 0, by omega, by rw [noExtra]; decide, ?_, fun _ _ => rfl⟩
    have literal : litLenInstr b.toNat 0 = .lit (BitVec.ofNat 8 b.toNat) := if_pos (by omega)
    rw [literal, BitVec.ofNat_toNat, BitVec.setWidth_eq]
  case eob | len257 | len258 | len259 | len260 | len261 | len262 | len263 | len264 | len285 | llReserved286 | llReserved287 =>
    exact ⟨_, 0, by decide, by decide, rfl, fun _ _ => rfl⟩
  case len265 e | len266 e | len267 e | len268 e | len269 e | len270 e | len271 e | len272 e | len273 e | len274 e | len275 e |
      len276 e | len277 e | len278 e | len279 e | len280 e | len281 e | len282 e | len283 e | len284 e =>
    refine ⟨_, e.toNat, ?_, ?_, ?_, fun _ _ => rfl⟩
    · decide
    · exact e.isLt
    · simp [litLenInstr]
  all_goals cases h

/-- A distance instruction as its symbol and extra value (R92, R164). -/
theorem distance_operands (h : formatOf i = .distance) :
    ∃ d e, d < 32 ∧ e < 2 ^ dext d ∧ distInstr d e = i ∧ ∀ c pos, encode c pos i = encodeDistance c d e := by
  cases i
  case dist0 | dist1 | dist2 | dist3 | distReserved30 | distReserved31 =>
    exact ⟨_, 0, by decide, by decide, rfl, fun _ _ => rfl⟩
  case dist4 e | dist5 e | dist6 e | dist7 e | dist8 e | dist9 e | dist10 e | dist11 e | dist12 e | dist13 e | dist14 e | dist15 e |
      dist16 e | dist17 e | dist18 e | dist19 e | dist20 e | dist21 e | dist22 e | dist23 e | dist24 e | dist25 e | dist26 e |
      dist27 e | dist28 e | dist29 e =>
    refine ⟨_, e.toNat, ?_, ?_, ?_, fun _ _ => rfl⟩
    · decide
    · exact e.isLt
    · simp [distInstr]
  all_goals cases h

variable {c : Ctx} {pos : Nat} {bits rest : List Bool}

/-- What decoding gives back: the instruction, with the input after its bits (R80). -/
def decodesBack (c : Ctx) (pos : Nat) (i : Instr) (bits rest : List Bool) : Prop :=
  decode bitListSource (formatOf i) c { pos := pos, bits := bits ++ rest } = .ok (i, { pos := pos + bits.length, bits := rest })

theorem decodesBack_litLen (hf : formatOf i = .litLen) (he : encode c pos i = some bits) : decodesBack c pos i bits rest := by
  obtain ⟨sym, e, -, small, rfl, encoded⟩ := litLen_operands hf
  rw [encoded] at he
  obtain ⟨code, hc, rfl⟩ := Option.map_eq_some_iff.1 he
  obtain ⟨hs, read⟩ := decodeSym_encodeSym (pos := pos) (rest := fieldBits (lext sym) e ++ rest) c.draw hc
  rw [decodesBack, hf, List.append_assoc]
  simp only [decode, decodeLitLen, read, BitVec.toNat_ofNat, Nat.mod_eq_of_lt hs, readExtra_fieldBits small, List.length_append,
    fieldBits_length, Nat.add_assoc]

theorem decodesBack_distance (hf : formatOf i = .distance) (he : encode c pos i = some bits) : decodesBack c pos i bits rest := by
  obtain ⟨d, e, -, small, rfl, encoded⟩ := distance_operands hf
  rw [encoded] at he
  obtain ⟨code, hc, rfl⟩ := Option.map_eq_some_iff.1 he
  obtain ⟨hs, read⟩ := decodeSym_encodeSym (pos := pos) (rest := fieldBits (dext d) e ++ rest) c.draw hc
  rw [decodesBack, hf, List.append_assoc]
  simp only [decode, decodeDistance, read, BitVec.toNat_ofNat, Nat.mod_eq_of_lt hs, readExtra_fieldBits small, List.length_append,
    fieldBits_length, Nat.add_assoc]

/-- A code-length symbol is read back with its code; the symbol decides what is read next (R85, R149). -/
theorem decodeSym_encodeClSymbol {sym n e : Nat} (he : encodeClSymbol c sym n e = some bits) :
    ∃ code, bits = code ++ fieldBits n e ∧ (BitVec.ofNat 9 sym).toNat = sym ∧
      decodeSym bitListSource c.clen c.draw { pos := pos, bits := code ++ (fieldBits n e ++ rest) } =
        .ok (BitVec.ofNat 9 sym, { pos := pos + code.length, bits := fieldBits n e ++ rest }) := by
  obtain ⟨code, hc, rfl⟩ := Option.map_eq_some_iff.1 he
  obtain ⟨hs, read⟩ := decodeSym_encodeSym (pos := pos) (rest := fieldBits n e ++ rest) c.draw hc
  exact ⟨code, rfl, by rw [BitVec.toNat_ofNat, Nat.mod_eq_of_lt hs], read⟩

theorem decodesBack_clLen (l : BitVec 4) (he : encode c pos (.clLen l) = some bits) :
    decodesBack c pos (.clLen l) bits rest := by
  obtain ⟨code, rfl, sym, read⟩ := decodeSym_encodeClSymbol (pos := pos) (rest := rest) he
  have small : l.toNat ≤ 15 := Nat.le_of_lt_succ l.isLt
  rw [decodesBack, List.append_assoc]
  simp only [formatOf, decode, decodeClSymbol, read, sym, if_pos small]
  simp [fieldBits]

/-- The first code-length symbol 16 of a block has no extra bits (R151; notes/assumptions/14.md). -/
theorem decodesBack_clRepeatPrev (e : BitVec 2) (he : encode c pos (.clRepeatPrev e) = some bits) :
    decodesBack c pos (.clRepeatPrev e) bits rest := by
  by_cases prev : c.havePrev = true
  · rw [encode, if_pos prev] at he
    obtain ⟨code, rfl, sym, read⟩ := decodeSym_encodeClSymbol (pos := pos) (rest := rest) he
    rw [decodesBack, List.append_assoc]
    simp only [formatOf, decode, decodeClSymbol, read, sym, prev]
    simp [Nat.add_assoc]
  · rw [encode, if_neg prev] at he
    split at he
    · rename_i zero
      subst zero
      obtain ⟨code, rfl, sym, read⟩ := decodeSym_encodeClSymbol (pos := pos) (rest := rest) he
      rw [decodesBack, List.append_assoc]
      simp only [formatOf, decode, decodeClSymbol, read, sym, prev]
      simp [fieldBits]
    · cases he

theorem decodesBack_clRepeatZero3 (e : BitVec 3) (he : encode c pos (.clRepeatZero3 e) = some bits) :
    decodesBack c pos (.clRepeatZero3 e) bits rest := by
  obtain ⟨code, rfl, sym, read⟩ := decodeSym_encodeClSymbol (pos := pos) (rest := rest) he
  rw [decodesBack, List.append_assoc]
  simp only [formatOf, decode, decodeClSymbol, read, sym]
  simp [Nat.add_assoc]

theorem decodesBack_clRepeatZero11 (e : BitVec 7) (he : encode c pos (.clRepeatZero11 e) = some bits) :
    decodesBack c pos (.clRepeatZero11 e) bits rest := by
  obtain ⟨code, rfl, sym, read⟩ := decodeSym_encodeClSymbol (pos := pos) (rest := rest) he
  rw [decodesBack, List.append_assoc]
  simp only [formatOf, decode, decodeClSymbol, read, sym]
  simp [Nat.add_assoc]

/-! ## Command words (R88, R95) -/

section
variable {op tbl nbits ftype : Nat}

theorem cmdOp_cmdWord (h : op < 2 ^ 4) : (cmdOp (BitVec.ofNat 32 (cmdWord op tbl nbits ftype))).toNat = op := by
  simp only [cmdOp, cmdWord, BitVec.extractLsb'_toNat, BitVec.toNat_ofNat, Nat.shiftRight_eq_div_pow]
  omega

theorem cmdTbl_cmdWord (h : op < 2 ^ 4) (ht : tbl < 2 ^ 2) :
    (cmdTbl (BitVec.ofNat 32 (cmdWord op tbl nbits ftype))).toNat = tbl := by
  simp only [cmdTbl, cmdWord, BitVec.extractLsb'_toNat, BitVec.toNat_ofNat, Nat.shiftRight_eq_div_pow]
  omega

theorem cmdNbits_cmdWord (h : op < 2 ^ 4) (ht : tbl < 2 ^ 2) (hn : nbits < 2 ^ 6) :
    (cmdNbits (BitVec.ofNat 32 (cmdWord op tbl nbits ftype))).toNat = nbits := by
  simp only [cmdNbits, cmdWord, BitVec.extractLsb'_toNat, BitVec.toNat_ofNat, Nat.shiftRight_eq_div_pow]
  omega

theorem cmdFtype_cmdWord (h : op < 2 ^ 4) (ht : tbl < 2 ^ 2) (hn : nbits < 2 ^ 6) (hf : ftype < 2 ^ 3) :
    (cmdFtype (BitVec.ofNat 32 (cmdWord op tbl nbits ftype))).toNat = ftype := by
  simp only [cmdFtype, cmdWord, BitVec.extractLsb'_toNat, BitVec.toNat_ofNat, Nat.shiftRight_eq_div_pow]
  omega

end

theorem decodeFilterStart_of_le {ft : BitVec 3} (h : ft.toNat ≤ 4) : decodeFilterStart ft = .filter ft := by
  unfold decodeFilterStart
  split
  all_goals first
    | omega
    | rfl

/-- A command as the word that CMD is written with (R88, R95). -/
theorem command_word (h : formatOf i = .command) (hw : i.wf = true) :
    ∃ w, decodeCommand (BitVec.ofNat 32 w) = i ∧ ∀ c pos, encode c pos i = some (fieldBits 32 w) := by
  cases i
  case filter ft =>
    refine ⟨_, ?_, fun _ _ => rfl⟩
    have field : cmdFtype (BitVec.ofNat 32 (cmdWord 3 0 0 ft.toNat)) = ft :=
      BitVec.eq_of_toNat_eq (cmdFtype_cmdWord (by decide) (by decide) (by decide) ft.isLt)
    rw [decodeCommand, cmdOp_cmdWord (by decide), field]
    exact decodeFilterStart_of_le (by simpa [Instr.wf] using hw)
  case huffBuild tbl =>
    refine ⟨_, ?_, fun _ _ => rfl⟩
    have field : cmdTbl (BitVec.ofNat 32 (cmdWord 7 tbl.toNat 0 0)) = tbl :=
      BitVec.eq_of_toNat_eq (cmdTbl_cmdWord (by decide) tbl.isLt)
    rw [decodeCommand, cmdOp_cmdWord (by decide), field]
    rfl
  case huffDecode tbl =>
    refine ⟨_, ?_, fun _ _ => rfl⟩
    have field : cmdTbl (BitVec.ofNat 32 (cmdWord 8 tbl.toNat 0 0)) = tbl :=
      BitVec.eq_of_toNat_eq (cmdTbl_cmdWord (by decide) tbl.isLt)
    rw [decodeCommand, cmdOp_cmdWord (by decide), field]
    rfl
  case bitsRead n =>
    refine ⟨_, ?_, fun _ _ => rfl⟩
    have field : cmdNbits (BitVec.ofNat 32 (cmdWord 9 0 n.toNat 0)) = n :=
      BitVec.eq_of_toNat_eq (cmdNbits_cmdWord (by decide) (by decide) n.isLt)
    rw [decodeCommand, cmdOp_cmdWord (by decide), field]
    rfl
  case nop | inflate | defilter | crcReset | crcUpdate | crcCheck | bitsAlign | bitsReset | cmdReservedC | cmdReservedD |
      cmdReservedE | clear | filterFt5 | filterFt6 | filterFt7 => exact ⟨_, rfl, fun _ _ => rfl⟩
  all_goals cases h

theorem decodesBack_command (hf : formatOf i = .command) (hw : i.wf = true) (he : encode c pos i = some bits) :
    decodesBack c pos i bits rest := by
  obtain ⟨w, decoded, encoded⟩ := command_word hf hw
  rw [encoded] at he
  cases he
  simp [decodesBack, hf, decode, readField_fieldBits, decoded, Except.map]

/-- A FILTER row as the command word whose FTYPE selects it (R248 to R253). -/
theorem filterRow_word (h : formatOf i = .filterRow) :
    ∃ w, decodeFilterRow (cmdFtype (BitVec.ofNat 32 w)) = i ∧ ∀ c pos, encode c pos i = some (fieldBits 32 w) := by
  cases i
  case filterFt0 | filterFt1 | filterFt2 | filterFt3 | filterFt4 => exact ⟨_, rfl, fun _ _ => rfl⟩
  all_goals cases h

theorem decodesBack_filterRow (hf : formatOf i = .filterRow) (he : encode c pos i = some bits) :
    decodesBack c pos i bits rest := by
  obtain ⟨w, decoded, encoded⟩ := filterRow_word hf
  rw [encoded] at he
  cases he
  simp [decodesBack, hf, decode, readField_fieldBits, decoded, Except.map]

/-! ## Filter bytes and block headers (R81, R90, R94) -/

theorem decodeFilterType_of_ge {t : Byte} (h : 5 ≤ t.toNat) : decodeFilterType t = .ftReserved t := by
  unfold decodeFilterType
  split
  all_goals first
    | omega
    | rfl

/-- A DEFILTER row as its filter byte (R94). -/
theorem defilterRow_byte (h : formatOf i = .defilterRow) (hw : i.wf = true) :
    ∃ t, decodeFilterType (BitVec.ofNat 8 t) = i ∧ ∀ c pos, encode c pos i = some (fieldBits 8 t) := by
  cases i
  case ftNone | ftSub | ftUp | ftAvg | ftPaeth => exact ⟨_, rfl, fun _ _ => rfl⟩
  case ftReserved t =>
    refine ⟨t.toNat, ?_, fun _ _ => rfl⟩
    rw [BitVec.ofNat_toNat, BitVec.setWidth_eq]
    exact decodeFilterType_of_ge (by simpa [Instr.wf] using hw)
  all_goals cases h

theorem decodesBack_defilterRow (hf : formatOf i = .defilterRow) (hw : i.wf = true) (he : encode c pos i = some bits) :
    decodesBack c pos i bits rest := by
  obtain ⟨t, decoded, encoded⟩ := defilterRow_byte hf hw
  rw [encoded] at he
  cases he
  simp [decodesBack, hf, decode, readField_fieldBits, decoded, Except.map]

/-- A block type as the header it is dispatched from (R90). -/
theorem blockType_header (h : formatOf i = .blockType) :
    ∃ (f : BitVec 1) (t : BitVec 2), decodeBlockType f t = i ∧
      ∀ c pos, encode c pos i = some (fieldBits 1 f.toNat ++ fieldBits 2 t.toNat) := by
  cases i
  case blkStored f => exact ⟨f, 0, rfl, fun _ _ => rfl⟩
  case blkFixed f => exact ⟨f, 1, rfl, fun _ _ => rfl⟩
  case blkDynamic f => exact ⟨f, 2, rfl, fun _ _ => rfl⟩
  case blkReserved f => exact ⟨f, 3, rfl, fun _ _ => rfl⟩
  all_goals cases h

theorem readHeader_fieldBits (f : BitVec 1) (t : BitVec 2) :
    readHeader bitListSource { pos := pos, bits := fieldBits 1 f.toNat ++ fieldBits 2 t.toNat ++ rest } =
      .ok ((f, t), { pos := pos + 3, bits := rest }) := by
  simp only [readHeader, List.append_assoc, readField_toNat, Nat.add_assoc]

theorem decodesBack_blockType (hf : formatOf i = .blockType) (he : encode c pos i = some bits) :
    decodesBack c pos i bits rest := by
  obtain ⟨f, t, decoded, encoded⟩ := blockType_header hf
  rw [encoded] at he
  cases he
  simp only [decodesBack, hf, decode, readHeader_fieldBits, Except.map, decoded, List.length_append, fieldBits_length]

/-! ## Headers and stored bytes (R81 to R83, R147) -/

theorem decodesBack_blockHeader (f : BitVec 1) (t : BitVec 2) (he : encode c pos (.blockHeader f t) = some bits) :
    decodesBack c pos (.blockHeader f t) bits rest := by
  cases he
  simp only [decodesBack, formatOf, decode, readHeader_fieldBits, Except.map, List.length_append, fieldBits_length]

theorem decodesBack_storedHeader (len nlen : BitVec 16) (he : encode c pos (.storedHeader len nlen) = some bits) :
    decodesBack c pos (.storedHeader len nlen) bits rest := by
  cases he
  simp only [decodesBack, formatOf, decode, decodeStoredHeader, List.append_assoc, align_append List.length_replicate,
    readField_toNat, List.length_append, List.length_replicate, fieldBits_length, Nat.add_assoc]

theorem decodesBack_storedByte (b : Byte) (he : encode c pos (.storedByte b) = some bits) :
    decodesBack c pos (.storedByte b) bits rest := by
  cases he
  simp only [decodesBack, formatOf, decode, readField_toNat, Except.map, fieldBits_length]

theorem decodesBack_dynHeader (hlit hdist : BitVec 5) (hclen : BitVec 4)
    (he : encode c pos (.dynHeader hlit hdist hclen) = some bits) : decodesBack c pos (.dynHeader hlit hdist hclen) bits rest := by
  cases he
  simp only [decodesBack, formatOf, decode, decodeDynHeader, List.append_assoc, readField_toNat, List.length_append,
    fieldBits_length, Nat.add_assoc]

theorem decodesBack_dynClLengths (lens : List (BitVec 3)) (he : encode c pos (.dynClLengths lens) = some bits) :
    decodesBack c pos (.dynClLengths lens) bits rest := by
  rw [encode] at he
  split at he
  · rename_i count
    cases he
    have length : (lens.flatMap fun l => fieldBits 3 l.toNat).length = 3 * lens.length := by
      simp [List.length_flatMap, Nat.mul_comm]
    simp only [decodesBack, formatOf, decode, ← count, readLengths_fieldBits, Except.map, length]
  · cases he

/-- Settles O2: format by format, each field and each code is read back. -/
theorem decodeEncodeRoundTrip : Obligations.DecodeEncodeRoundTrip := by
  intro c pos i bits rest hw he
  show decodesBack c pos i bits rest
  cases hf : formatOf i with
  | litLen => exact decodesBack_litLen hf he
  | distance => exact decodesBack_distance hf he
  | command => exact decodesBack_command hf hw he
  | filterRow => exact decodesBack_filterRow hf he
  | defilterRow => exact decodesBack_defilterRow hf hw he
  | blockType => exact decodesBack_blockType hf he
  | _ =>
    cases i
    case blockHeader f t => exact decodesBack_blockHeader f t he
    case storedHeader len nlen => exact decodesBack_storedHeader len nlen he
    case storedByte b => exact decodesBack_storedByte b he
    case dynHeader hlit hdist hclen => exact decodesBack_dynHeader hlit hdist hclen he
    case dynClLengths lens => exact decodesBack_dynClLengths lens he
    case clLen l => exact decodesBack_clLen l he
    case clRepeatPrev e => exact decodesBack_clRepeatPrev e he
    case clRepeatZero3 e => exact decodesBack_clRepeatZero3 e he
    case clRepeatZero11 e => exact decodesBack_clRepeatZero11 e he
    all_goals cases hf

end Sys2Proof.Machine
end

section
/-! SUPPORT. The machine's cursor and a bit string read alike (R89, R100 to R104): ReadBits at the cursor reads the front of the
stream from bp on, and the decoder sees nothing else. -/

namespace Sys2Proof.Machine

/-- In the stream, the bits still to come at the cursor are the stream's from bp on (R104). -/
theorem cursorBits_eq_rest {s : State} (h : s.cursorOk) : s.cursorBits = s.rest.bits := by
  obtain ⟨-, cnt, pos, bits⟩ := s.cursorOk_iff.1 h
  have bp : s.bp = 8 * s.inPos.toNat - s.bitCnt.toNat := rfl
  have size : s.bitCnt.toNat + 8 * (s.inLen.toNat - s.inPos.toNat) = 8 * s.inLen.toNat - s.bp := by omega
  unfold State.cursorBits State.rest State.streamBits
  rw [size]
  refine List.map_congr_left fun b _ => ?_
  rw [State.cursorBit, bits]
  by_cases buffered : b < s.bitCnt.toNat
  · simp [buffered, Nat.not_le.2 buffered]
  · have byte : s.inPos.toNat + (b - s.bitCnt.toNat) / 8 = (s.bp + b) / 8 := by omega
    have bit : (b - s.bitCnt.toNat) % 8 = (s.bp + b) % 8 := by omega
    simp [buffered, Nat.not_lt.1 buffered, State.streamBit, byte, bit]

/-- `t` is `s` with its cursor moved on in the stream, and `x` is the rest of the stream there. -/
def State.readsRest (s : State) (x : BitList) (t : State) : Prop := t.rest = x ∧ t.cursorOk ∧ s.cursorOnly t

theorem readBits_readsRest {s t : State} {x : BitList} {n : Nat} (hn : 1 ≤ n) (hn' : n ≤ 32) (h : s.readsRest x t) :
    (bitListSource.read n x = none ∧ cursorSource.read n t = none) ∨
      ∃ v y u, bitListSource.read n x = some (v, y) ∧ cursorSource.read n t = some (v, u) ∧ s.readsRest y u := by
  obtain ⟨rfl, ok, only⟩ := h
  obtain ⟨enough, few⟩ := readBits_cursorBits hn' t
  rw [cursorBits_eq_rest ok] at enough few
  by_cases size : t.rest.bits.length < n
  · exact .inl ⟨if_pos size, few size⟩
  · obtain ⟨u, read, bits, moved, -⟩ := enough (Nat.not_lt.1 size)
    obtain ⟨ok', bp⟩ := readBits_cursorOk hn hn' ok read
    refine .inr ⟨_, _, u, if_neg size, read, ?_, ok', State.cursorOnly_trans only moved⟩
    rw [cursorBits_eq_rest ok'] at bits
    exact congrArg₂ BitList.mk bp bits

theorem alignToByte_readsRest {s t : State} {x : BitList} (h : s.readsRest x t) :
    s.readsRest (bitListSource.align x) (cursorSource.align t) := by
  obtain ⟨rfl, ok, only⟩ := h
  obtain ⟨ok', -⟩ := alignToByte_cursorAligned ok
  obtain ⟨few, cnt, -, -⟩ := ok
  have pad : padLength t.bp = t.bitCnt.toNat := by unfold padLength State.bp; omega
  have boundary : (alignToByte t).bp = 8 * t.inPos.toNat := rfl
  have bp : (alignToByte t).bp = t.bp + padLength t.bp := by rw [boundary, pad, State.bp]; omega
  refine ⟨congrArg₂ BitList.mk bp ?_, ok', State.cursorOnly_trans only rfl⟩
  show (alignToByte t).streamBits (alignToByte t).bp (8 * t.inLen.toNat - (alignToByte t).bp) = t.rest.bits.drop (padLength t.bp)
  rw [bp, State.rest]
  apply List.ext_getElem
  · simp [State.streamBits]; omega
  · intro b _ _
    simp only [State.streamBits, List.getElem_map, List.getElem_range, List.getElem_drop, Nat.add_assoc]
    rfl

/-- A bit string and the cursor are sources that read alike (R101, R102, R104). -/
theorem bitListSource_cursorSource_alike (s : State) : SourcesAlike bitListSource cursorSource s.readsRest where
  read := readBits_readsRest
  align := alignToByte_readsRest

/-- Settles O10: the decoder sees its source only through its reads, and these agree. -/
theorem cursorDecodesTheStream : Obligations.CursorDecodesTheStream := by
  intro elem c s ok
  have start : s.readsRest s.rest s := ⟨rfl, ok, s.cursorOnly_refl⟩
  have alike := decode_alike (bitListSource_cursorSource_alike s) (elem := elem) (c := c) start
  obtain ⟨d, e, e'⟩ | ⟨i, y, t, e, e', rest, ok', only⟩ := alike.cases
  · rw [e]; exact e'
  · rw [e]; exact ⟨t, e', rest, ok', only⟩

end Sys2Proof.Machine
end

section
/-! SUPPORT. The codes of the tables that are written out: the fixed block's (R97, R112, R122) and the flat ones, in which a symbol
is its own code. -/

namespace Sys2Proof.Machine

/-! ## Looking a symbol up -/

theorem symbolRun_length (lo n : Nat) : (symbolRun lo n).length = n := by simp [symbolRun]

/-- The place of a symbol in a run of symbols. -/
theorem findIdx?_symbolRun {lo n sym : Nat} (h : lo + n ≤ 2 ^ 9) :
    (symbolRun lo n).findIdx? (fun v => v.toNat == sym) = if lo ≤ sym ∧ sym < lo + n then some (sym - lo) else none := by
  have entry : ∀ j, j < n → (BitVec.ofNat 9 (lo + j)).toNat = lo + j := fun j hj => by
    rw [BitVec.toNat_ofNat, Nat.mod_eq_of_lt (by omega)]
  split
  · rw [List.findIdx?_eq_some_iff_getElem]
    refine ⟨by rw [symbolRun_length]; omega, ?_, fun j hj => ?_⟩
    · simp only [symbolRun, List.getElem_map, List.getElem_range, beq_iff_eq]
      rw [entry _ (by omega)]; omega
    · simp only [symbolRun, List.getElem_map, List.getElem_range, Bool.not_eq_true, beq_eq_false_iff_ne]
      rw [entry _ (by omega)]; omega
  · rw [List.findIdx?_eq_none_iff]
    intro v hv
    simp only [symbolRun, List.mem_map, List.mem_range] at hv
    obtain ⟨j, hj, rfl⟩ := hv
    rw [entry _ hj, beq_eq_false_iff_ne]
    omega

variable {T : Table} {sym fuel L first index : Nat}

theorem findCode_found {j : Nat} (h : ((T.symbols.drop index).take (T.count L)).findIdx? (fun v => v.toNat == sym) = some j)
    (fits : first + j < 2 ^ L) : findCode T sym (fuel + 1) L first index = some (L, first + j) := by
  rw [findCode, h]; exact if_pos fits

theorem findCode_longer (h : ((T.symbols.drop index).take (T.count L)).findIdx? (fun v => v.toNat == sym) = none) :
    findCode T sym (fuel + 1) L first index =
      findCode T sym fuel (L + 1) (2 * (first + T.count L)) (index + T.count L) := by rw [findCode, h]

/-- A length without codes is passed over. -/
theorem findCode_noCodes (h : T.count L = 0) :
    findCode T sym (fuel + 1) L first index = findCode T sym fuel (L + 1) (2 * first) index := by
  rw [findCode_longer (by rw [h]; rfl), h]; rfl

/-! ## The fixed literal/length codes (R97) -/

/-- The code of a literal/length symbol in a fixed block (R97): five rows, in each of which the codes rise by 1 a symbol. -/
def fixedLitCode (sym : Nat) : List Bool :=
  if sym ≤ 143 then codeBits 8 (0b00110000 + sym)
  else if sym ≤ 255 then codeBits 9 (0b110010000 + (sym - 144))
  else if sym ≤ 279 then codeBits 7 (sym - 256)
  else codeBits 8 (0b11000000 + (sym - 280))

theorem findIdx?_fixedLit7 (sym : Nat) :
    ((fixedLit.symbols.drop 0).take (fixedLit.count 7)).findIdx? (fun v => v.toNat == sym) =
      if 256 ≤ sym ∧ sym < 280 then some (sym - 256) else none := findIdx?_symbolRun (lo := 256) (n := 24) (by decide)

theorem findIdx?_fixedLit8 (sym : Nat) :
    ((fixedLit.symbols.drop 24).take (fixedLit.count 8)).findIdx? (fun v => v.toNat == sym) =
      if sym < 144 then some sym else if 280 ≤ sym ∧ sym < 288 then some (sym - 280 + 144) else none := by
  have row : (fixedLit.symbols.drop 24).take (fixedLit.count 8) = symbolRun 0 144 ++ symbolRun 280 8 := rfl
  rw [row, List.findIdx?_append, findIdx?_symbolRun (by decide), findIdx?_symbolRun (by decide), symbolRun_length]
  by_cases low : sym < 144
  · simp [low]
  · by_cases high : 280 ≤ sym ∧ sym < 288 <;> simp [low, high]

theorem findIdx?_fixedLit9 (sym : Nat) :
    ((fixedLit.symbols.drop 176).take (fixedLit.count 9)).findIdx? (fun v => v.toNat == sym) =
      if 144 ≤ sym ∧ sym < 256 then some (sym - 144) else none := findIdx?_symbolRun (lo := 144) (n := 112) (by decide)

/-- The codes of the fixed literal/length table have 7, 8 or 9 bits: at length 7 the first is 0, at length 8 it is 48, at length 9
it is 400 (R112). -/
theorem findCode_fixedLit {sym : Nat} (h : sym < 288) :
    findCode fixedLit sym Config.maxBits 1 0 0 =
      some (if sym ≤ 143 then (8, 48 + sym) else if sym ≤ 255 then (9, 400 + (sym - 144))
        else if sym ≤ 279 then (7, sym - 256) else (8, 192 + (sym - 280))) := by
  have short : findCode fixedLit sym Config.maxBits 1 0 0 = findCode fixedLit sym 9 7 0 0 := rfl
  rw [short]
  by_cases row7 : 256 ≤ sym ∧ sym < 280
  · rw [findCode_found ((findIdx?_fixedLit7 sym).trans (if_pos row7)) (by omega), if_neg (by omega), if_neg (by omega),
      if_pos (by omega), Nat.zero_add]
  rw [findCode_longer ((findIdx?_fixedLit7 sym).trans (if_neg row7))]
  show findCode fixedLit sym 8 8 48 24 = _
  by_cases low : sym < 144
  · rw [findCode_found ((findIdx?_fixedLit8 sym).trans (if_pos low)) (by omega), if_pos (by omega)]
  by_cases high : 280 ≤ sym ∧ sym < 288
  · rw [findCode_found ((findIdx?_fixedLit8 sym).trans ((if_neg low).trans (if_pos high))) (by omega), if_neg (by omega),
      if_neg (by omega), if_neg (by omega), show 48 + (sym - 280 + 144) = 192 + (sym - 280) by omega]
  rw [findCode_longer ((findIdx?_fixedLit8 sym).trans ((if_neg low).trans (if_neg high)))]
  show findCode fixedLit sym 7 9 400 176 = _
  rw [findCode_found ((findIdx?_fixedLit9 sym).trans (if_pos (by omega))) (by omega), if_neg (by omega), if_pos (by omega)]

theorem encodeSym_fixedLit {sym : Nat} (h : sym < 288) : encodeSym fixedLit sym = some (fixedLitCode sym) := by
  rw [encodeSym, findCode_fixedLit h, fixedLitCode, Option.map_some]
  split_ifs <;> rfl

/-! ## Runs of equal lengths in Build (R110) -/

theorem symbolRun_succ (lo n : Nat) : symbolRun lo (n + 1) = BitVec.ofNat 9 lo :: symbolRun (lo + 1) n := by
  simp only [symbolRun, List.range_succ_eq_map, List.map_cons, List.map_map, Nat.add_zero]
  congr 1
  exact List.map_congr_left fun i _ => by rw [Function.comp_apply, Nat.succ_eq_add_one, Nat.add_right_comm, Nat.add_assoc]

/-- The symbols of a run of equal lengths go to places in a row. -/
theorem placeSymbols_replicate {l n sym : Nat} {ls offs : List Nat} {front mid back : List (BitVec 9)} (hl : l ≠ 0)
    (hi : l < offs.length) (place : offs.getD l 0 = front.length) (hn : mid.length = n) :
    placeSymbols (List.replicate n l ++ ls) sym offs (front ++ (mid ++ back)) =
      placeSymbols ls (sym + n) (offs.set l (front.length + n)) (front ++ (symbolRun sym n ++ back)) := by
  induction n generalizing sym offs front mid with
  | zero =>
    obtain rfl := List.length_eq_zero_iff.1 hn
    have same : offs.set l front.length = offs := by
      rw [← place, List.getD_eq_getElem _ _ hi, List.set_getElem_self]
    rw [Nat.add_zero, Nat.add_zero, same]
    rfl
  | succ n ih =>
    obtain ⟨m, mid, rfl⟩ := List.exists_cons_of_length_eq_add_one hn
    have next := ih (sym := sym + 1) (offs := offs.set l (front.length + 1)) (front := front ++ [BitVec.ofNat 9 sym]) (mid := mid)
      (by simpa using hi) (by rw [getD_set_self _ hi]; simp) (by simpa using hn)
    rw [List.replicate_succ, List.cons_append, placeSymbols, if_neg hl, place]
    simp only [List.append_assoc, List.cons_append, List.nil_append, List.length_append, List.length_singleton, List.set_set,
      List.set_append_right _ _ (Nat.le_refl _), Nat.sub_self, List.set_cons_zero, symbolRun_succ] at next ⊢
    rw [next, Nat.add_assoc, Nat.add_assoc, Nat.add_comm 1]

/-- A list in parts of given lengths. -/
theorem exists_append_of_length {α : Type} {m n : Nat} {l : List α} (h : l.length = m + n) :
    ∃ a b, l = a ++ b ∧ a.length = m ∧ b.length = n :=
  ⟨l.take m, l.drop m, (List.take_append_drop m l).symm, by simp [h], by simp [h]⟩

/-- Build fills every entry of the fixed literal/length table (R120, R122). -/
theorem build_fixedLitLens (unset : Nat → BitVec 9) : build unset 288 fixedLitLens = fixedLit := by
  have counts : countLengths fixedLitLens (List.replicate 16 0) = fixedLit.counts := by decide +kernel
  have offs : offsetsFrom fixedLit.counts 0 = [0, 0, 0, 0, 0, 0, 0, 0, 24, 176, 288, 288, 288, 288, 288, 288] := rfl
  have symbols : ∀ l : List (BitVec 9), l.length = 288 →
      placeSymbols fixedLitLens 0 (offsetsFrom fixedLit.counts 0) l = fixedLit.symbols := by
    intro l hl
    obtain ⟨a, l, rfl, ha, hl⟩ := exists_append_of_length (m := 24) (n := 264) hl
    obtain ⟨b, l, rfl, hb, hl⟩ := exists_append_of_length (m := 144) (n := 120) hl
    obtain ⟨c, d, rfl, hc, hd⟩ := exists_append_of_length (m := 8) (n := 112) hl
    have size0 := symbolRun_length 0 144
    have size256 := symbolRun_length 256 24
    calc placeSymbols fixedLitLens 0 (offsetsFrom fixedLit.counts 0) (a ++ (b ++ (c ++ d)))
      _ = placeSymbols (List.replicate 144 8 ++ (List.replicate 112 9 ++ (List.replicate 24 7 ++ (List.replicate 8 8 ++ [])))) 0
            [0, 0, 0, 0, 0, 0, 0, 0, 24, 176, 288, 288, 288, 288, 288, 288] (a ++ (b ++ (c ++ d))) := by
        rw [offs, fixedLitLens, List.append_assoc, List.append_assoc, List.append_nil]
      _ = placeSymbols (List.replicate 112 9 ++ (List.replicate 24 7 ++ (List.replicate 8 8 ++ []))) 144
            [0, 0, 0, 0, 0, 0, 0, 0, 168, 176, 288, 288, 288, 288, 288, 288]
            ((a ++ symbolRun 0 144 ++ c) ++ (d ++ [])) := by
        rw [placeSymbols_replicate (by decide) (by decide) (by rw [ha]; rfl) hb, ha]
        simp
      _ = placeSymbols (List.replicate 24 7 ++ (List.replicate 8 8 ++ [])) 256
            [0, 0, 0, 0, 0, 0, 0, 0, 168, 288, 288, 288, 288, 288, 288, 288]
            ([] ++ (a ++ (symbolRun 0 144 ++ (c ++ symbolRun 144 112)))) := by
        rw [placeSymbols_replicate (by decide) (by decide) (by simp [ha, hc, size0]) hd]
        simp [ha, hc, size0]
      _ = placeSymbols (List.replicate 8 8 ++ []) 280 [0, 0, 0, 0, 0, 0, 0, 24, 168, 288, 288, 288, 288, 288, 288, 288]
            ((symbolRun 256 24 ++ symbolRun 0 144) ++ (c ++ symbolRun 144 112)) := by
        rw [placeSymbols_replicate (by decide) (by decide) rfl ha]
        simp
      _ = fixedLit.symbols := by
        rw [placeSymbols_replicate (by decide) (by decide) (by simp [size0, size256]) hc, placeSymbols, ← List.append_assoc]
        rfl
  simp only [build, counts, symbols _ (show ((List.range 288).map unset).length = 288 by simp), fixedLitLens_length]
  rfl

/-! ## Flat codes -/

/-- The table lists the symbols below `n` and gives each of them a code of 5 bits. -/
def listsFlat (n : Nat) (T : Table) : Prop :=
  T.counts = [0, 0, 0, 0, 0, BitVec.ofNat 16 n, 0, 0, 0, 0, 0, 0, 0, 0, 0, 0] ∧ T.symbols.take n = symbolRun 0 n

theorem listsFlat_flatTable (n : Nat) : listsFlat n (flatTable n) :=
  ⟨rfl, List.take_of_length_le (Nat.le_of_eq (symbolRun_length 0 n))⟩

/-- The fixed distance table, whatever stands in its two entries past the counts (R121, R122). -/
theorem listsFlat_fixedDistLens (unset : Nat → BitVec 9) : listsFlat 30 (build unset 32 fixedDistLens) := by
  have counts : countLengths fixedDistLens (List.replicate 16 0) = (flatTable 30).counts := by decide
  obtain ⟨a, b, parts, ha, -⟩ := exists_append_of_length (m := 30) (n := 2) (l := (List.range 32).map unset) (by simp)
  have symbols := placeSymbols_replicate (l := 5) (sym := 0) (ls := []) (offs := offsetsFrom (flatTable 30).counts 0) (front := [])
    (mid := a) (back := b) (by decide) (by decide) rfl ha
  refine ⟨counts, ?_⟩
  simp only [build, counts, parts]
  rw [List.append_nil, List.nil_append, List.nil_append] at symbols
  rw [fixedDistLens, symbols]
  exact List.take_left' (symbolRun_length 0 30)

/-- In a flat table a symbol is its own code (R112). -/
theorem encodeSym_flat {n d : Nat} {T : Table} (flat : listsFlat n T) (hn : n ≤ 32) (hd : d < n) :
    encodeSym T d = some (codeBits 5 d) := by
  obtain ⟨counts, symbols⟩ := flat
  have none : ∀ L, L < 5 → T.count L = 0 := by
    intro L hL
    interval_cases L <;> simp [Table.count, counts]
  have short : findCode T d Config.maxBits 1 0 0 = findCode T d 11 5 0 0 := by
    rw [Config.maxBits, findCode_noCodes (none 1 (by decide)), findCode_noCodes (none 2 (by decide)),
      findCode_noCodes (none 3 (by decide)), findCode_noCodes (none 4 (by decide))]
  have count : T.count 5 = n := by
    simp only [Table.count, counts, List.getD_cons_succ, List.getD_cons_zero, BitVec.toNat_ofNat]
    omega
  have found : ((T.symbols.drop 0).take (T.count 5)).findIdx? (fun v => v.toNat == d) = some d := by
    rw [List.drop_zero, count, symbols, findIdx?_symbolRun (by omega), if_pos (by omega), Nat.sub_zero]
  rw [encodeSym, short, findCode_found found (by omega), Nat.zero_add, Option.map_some]

end Sys2Proof.Machine
end

section
/-! SUPPORT. Every instruction has an encoding (R80, R90 to R95), and the fixed block's codes decode to their symbols (R97). -/

namespace Sys2Proof.Machine

theorem encodeLitLen_tableCtx {sym : Nat} (h : sym < 288) (e : Nat) :
    encodeLitLen tableCtx sym e = some (fixedLitCode sym ++ fieldBits (lext sym) e) := by
  have code : encodeSym tableCtx.lit sym = some (fixedLitCode sym) := encodeSym_fixedLit h
  rw [encodeLitLen, code, Option.map_some]

theorem encodeDistance_tableCtx {d : Nat} (h : d < 32) (e : Nat) :
    encodeDistance tableCtx d e = some (codeBits 5 d ++ fieldBits (dext d) e) := by
  have code : encodeSym tableCtx.dist d = some (codeBits 5 d) := encodeSym_flat (listsFlat_flatTable 32) (Nat.le_refl 32) h
  rw [encodeDistance, code, Option.map_some]

theorem encodeClSymbol_tableCtx {sym : Nat} (h : sym < 19) (n e : Nat) :
    encodeClSymbol tableCtx sym n e = some (codeBits 5 sym ++ fieldBits n e) := by
  have code : encodeSym tableCtx.clen sym = some (codeBits 5 sym) := encodeSym_flat (listsFlat_flatTable 19) (by decide) h
  rw [encodeClSymbol, code, Option.map_some]

/-- Settles O3: in the context whose tables give every symbol a code, with HCLEN the number of lengths written. -/
theorem everyInstructionEncodes : Obligations.EveryInstructionEncodes := by
  intro i hw
  cases hf : formatOf i with
  | litLen =>
    obtain ⟨sym, e, hs, -, -, encoded⟩ := litLen_operands hf
    exact ⟨tableCtx, _, (encoded tableCtx 0).trans (encodeLitLen_tableCtx hs e)⟩
  | distance =>
    obtain ⟨d, e, hd, -, -, encoded⟩ := distance_operands hf
    exact ⟨tableCtx, _, (encoded tableCtx 0).trans (encodeDistance_tableCtx hd e)⟩
  | command => obtain ⟨w, -, encoded⟩ := command_word hf hw; exact ⟨tableCtx, _, encoded tableCtx 0⟩
  | filterRow => obtain ⟨w, -, encoded⟩ := filterRow_word hf; exact ⟨tableCtx, _, encoded tableCtx 0⟩
  | defilterRow => obtain ⟨t, -, encoded⟩ := defilterRow_byte hf hw; exact ⟨tableCtx, _, encoded tableCtx 0⟩
  | blockType => obtain ⟨f, t, -, encoded⟩ := blockType_header hf; exact ⟨tableCtx, _, encoded tableCtx 0⟩
  | _ =>
    cases i
    case dynClLengths lens => exact ⟨{ tableCtx with hclen := lens.length }, _, if_pos rfl⟩
    case clLen l => exact ⟨tableCtx, _, encodeClSymbol_tableCtx (by have := l.isLt; omega) 0 0⟩
    case clRepeatPrev e => exact ⟨tableCtx, _, encodeClSymbol_tableCtx (sym := 16) (by decide) 2 e.toNat⟩
    case clRepeatZero3 e => exact ⟨tableCtx, _, encodeClSymbol_tableCtx (sym := 17) (by decide) 3 e.toNat⟩
    case clRepeatZero11 e => exact ⟨tableCtx, _, encodeClSymbol_tableCtx (sym := 18) (by decide) 7 e.toNat⟩
    case blockHeader | storedHeader | storedByte | dynHeader => exact ⟨tableCtx, _, rfl⟩
    all_goals cases hf

/-- Settles O7: each row's code is the one the encoder finds, and the walker reads it back. -/
theorem fixedBlockCodes : Obligations.FixedBlockCodes := by
  intro unset draw pos rest
  refine ⟨fun sym hs => ?_, fun d hd => ?_⟩
  · show decodeSym bitListSource (build unset 288 fixedLitLens) draw { pos := pos, bits := fixedLitCode sym ++ rest } =
      .ok (BitVec.ofNat 9 sym, { pos := pos + (fixedLitCode sym).length, bits := rest })
    rw [build_fixedLitLens]
    exact (decodeSym_encodeSym draw (encodeSym_fixedLit hs)).2
  · have code := encodeSym_flat (listsFlat_fixedDistLens unset) (by decide) hd
    have read := (decodeSym_encodeSym (pos := pos) (rest := rest) draw code).2
    rwa [codeBits_length] at read

end Sys2Proof.Machine
end

section
/-! SUPPORT. Headers, a whole match, and waiting: one ENGINE step or one move each (R83, R90, R98, R131 to R135, R146, R162,
R270). -/

namespace Sys2Proof.Machine

/-! ## Headers (R131 to R135, R146) -/

/-- A narrow field with a small number added, in a register that has room for the sum. -/
theorem toNat_setWidth_add {m n : Nat} (a : BitVec m) (k : BitVec n) (h : 2 ^ m + k.toNat ≤ 2 ^ n) :
    (a.setWidth n + k).toNat = a.toNat + k.toNat := by
  have := a.isLt
  rw [BitVec.toNat_add, BitVec.toNat_setWidth, Nat.mod_eq_of_lt (a := a.toNat) (by omega), Nat.mod_eq_of_lt (by omega)]

/-- Settles O15: the counts fit their registers, so the strict check compares the fields plus 257 and 1. -/
theorem dynamicHeaderCounts : Obligations.DynamicHeaderCounts := by
  intro s a b c
  have hlit : (a.setWidth 9 + 257).toNat = a.toNat + 257 := toNat_setWidth_add a 257 (by decide)
  have hdist : (b.setWidth 6 + 1).toNat = b.toNat + 1 := toNat_setWidth_add b 1 (by decide)
  have hclen : (c.setWidth 5 + 4).toNat = c.toNat + 4 := toNat_setWidth_add c 4 (by decide)
  have strict :
      (s.strictCounts && (decide (286 < (a.setWidth 9 + 257).toNat) || decide (30 < (b.setWidth 6 + 1).toNat))) = true ↔
        s.strictCounts = true ∧ (286 < a.toNat + 257 ∨ 30 < b.toNat + 1) := by
    rw [hlit, hdist, Bool.and_eq_true, Bool.or_eq_true, decide_eq_true_iff, decide_eq_true_iff]
  exact ⟨fun fine => ⟨_, if_neg (mt strict.1 fine), hlit, hdist, hclen, rfl⟩,
    fun on large => if_pos (strict.2 ⟨on, large⟩)⟩

/-- Settles O12: the meanings of the four block types, with STORED_EN on and off. -/
theorem blockHeaderSelectsBlockType : Obligations.BlockHeaderSelectsBlockType := by
  intro s f
  exact ⟨⟨rfl, rfl, rfl, rfl⟩, fun t => ⟨rfl, continueElement_blockType rfl⟩, fun on => if_pos on,
    fun off => if_neg (by rw [off]; exact Bool.false_ne_true), rfl, ⟨_, _, rfl⟩, rfl⟩

/-! ## A whole match (R162) -/

/-- A length symbol with its extra value sets the length that waits for its distance (R162, R170 to R198). -/
theorem exec_litLenInstr_length {sym e : Nat} (lo : 257 ≤ sym) (hi : sym ≤ 285) (he : e < 2 ^ lext sym) (s : State) :
    exec (litLenInstr sym e) s = lengthPart sym e s := by
  have value : (BitVec.ofNat (lext sym) e).toNat = e := by rw [BitVec.toNat_ofNat, Nat.mod_eq_of_lt he]
  have noExtra : lext sym = 0 → e = 0 := fun zero => by rw [zero] at he; exact Nat.lt_one_iff.1 he
  interval_cases sym
  all_goals first
    | exact congrArg (lengthPart _ · s) value
    | (rw [noExtra rfl]; rfl)

/-- A distance symbol with its extra value finishes the match (R162, R200 to R229). -/
theorem exec_distInstr {d e : Nat} (hd : d < 30) (he : e < 2 ^ dext d) (s : State) :
    exec (distInstr d e) s = distancePart d e s := by
  have value : (BitVec.ofNat (dext d) e).toNat = e := by rw [BitVec.toNat_ofNat, Nat.mod_eq_of_lt he]
  have noExtra : dext d = 0 → e = 0 := fun zero => by rw [zero] at he; exact Nat.lt_one_iff.1 he
  interval_cases d
  all_goals first
    | exact congrArg (distancePart _ · s) value
    | (rw [noExtra rfl]; rfl)

theorem dbase_pos {d : Nat} (h : d < 30) : 1 ≤ dbase d := by
  have all : ∀ d < 30, 1 ≤ dbase d := by decide
  exact all d h

/-- A distance within what is produced, and room for the length: the match is copied (R162, R165). -/
theorem distancePart_room {d e len : Nat} {s : State} (hd : d < 30) (hp : s.pending = .distance len)
    (far : dbase d + e ≤ s.outLen.toNat) (room : s.outLen.toNat + len ≤ s.outCap.toNat) :
    ∃ t, distancePart d e s = .next t ∧ matchCopied len (dbase d + e) s t := by
  have waits : s.matchLen = len := by rw [State.matchLen, hp]
  obtain ⟨u, copied, outLen, produced, only, frame⟩ := copy_room far (Nat.le_add_right_of_le (dbase_pos hd)) room
  refine ⟨matchDone u, ?_, outLen, produced, only, ?_⟩
  · rw [distancePart, if_neg (Nat.not_lt.2 far), waits, copied]; rfl
  · rw [frame]; rfl

/-- An element runs the instruction that decoding the rest of the stream gives, and leaves the cursor behind its bits (R80,
R104). -/
theorem runElement_of_rest {elem : Elem} {s : State} {i : Instr} {y : BitList} (ok : s.cursorOk)
    (h : decode bitListSource elem s.ctx s.rest = .ok (i, y)) : ∃ t, runElement elem s = exec i t ∧ s.readsRest y t := by
  have read := cursorDecodesTheStream elem s.ctx s ok
  rw [h] at read
  obtain ⟨t, decoded, after⟩ := read
  exact ⟨t, runElement_ok decoded, after⟩

/-- `s` with its cursor elsewhere. -/
def State.atCursor (s : State) (p : Word) (c : BitVec 6) (b : BitVec 64) : State := { s with inPos := p, bitCnt := c, bitBuf := b }

theorem exists_atCursor {s t : State} (h : s.cursorOnly t) : ∃ p c b, t = s.atCursor p c b := ⟨_, _, _, h⟩

/-- Settles O26: the length code is fetched and run, then the distance code where it left the cursor. -/
theorem matchInOneStep : Obligations.MatchInOneStep := by
  intro s sym d e e2 y z ⟨busy, phase, op, pending⟩ st ok lo hi he hd he2 hlen hdist far room
  obtain ⟨t, fetched, rest, ok', only⟩ := runElement_of_rest (elem := .litLen) (s := markStart s) ok hlen
  have waiting : engineStep s = runElement .distance { t with pending := .distance (lbase sym + e) } := by
    rw [engineStep_inflate phase op, inflateStep_element (elem := .litLen) pending (by rw [st]; rfl), fetched,
      exec_litLenInstr_length lo hi he, lengthPart, andThen_next, continueElement_distance rfl]
  obtain ⟨p, c, b, rfl⟩ := exists_atCursor only
  subst rest
  obtain ⟨w, fetched2, rest2, -, only2⟩ := runElement_of_rest (elem := .distance)
    (s := { (markStart s).atCursor p c b with pending := .distance (lbase sym + e) }) ok' hdist
  obtain ⟨u, ran, copied⟩ := distancePart_room (s := w) (e := e2) (len := lbase sym + e) hd (by rw [only2])
    (by rw [only2]; exact far) (by rw [only2]; exact room)
  rw [exec_distInstr hd he2, ran] at fetched2
  obtain ⟨p, c, b, rfl⟩ := exists_atCursor only2
  obtain ⟨outLen, produced, outOnly, frame⟩ := copied
  refine ⟨u, ?_, ?_, outLen, produced, outOnly, ?_⟩
  · rw [waiting, fetched2]
  · rw [← rest2, frame]; rfl
  · rw [frame, ← st, ← pending]; rfl

/-! ## Waiting (R98, R270) -/

/-- Settles O51: a POLL that reads BUSY stays scheduled and runs ENGINE's step; a block that is not BUSY only counts the step. -/
theorem pollAndIdleWait : Obligations.PollAndIdleWait := by
  intro s ms
  refine ⟨fun hm idle => ?_, fun hm busy => ?_, fun hm idle => ?_⟩
  · have read : turn s = .next { s with moves := ms, hostRead := s.statusWord } := by rw [turn, hm]; exact if_neg idle
    rw [step, read]; rfl
  · have read : turn s = engineStep { s with hostRead := s.statusWord, moves := .poll :: ms } := by
      rw [turn, hm]; exact if_pos busy
    rw [step, read, ← hm]; rfl
  · have wait : turn s = .next s := by rw [turn, hm]; exact if_neg idle
    rw [step, wait]; rfl

/-! ## Words written out -/

/-- Settles O1: every word is decoded bit by bit. -/
theorem writtenOutWordsDecode : Obligations.WrittenOutWordsDecode := by
  exact ⟨rfl, rfl, rfl, rfl, rfl, rfl, rfl, rfl, rfl, rfl, rfl, rfl, rfl, rfl⟩

end Sys2Proof.Machine
end

section
/-! SUPPORT. ReadBits and AlignToByte by the bit position bp (R101, R102, R104). -/

namespace Sys2Proof.Machine

/-- The first bits of the rest of the stream are the stream's bits at bp. -/
theorem take_rest_bits {s : State} {n : Nat} (h : s.bp + n ≤ 8 * s.inLen.toNat) :
    s.rest.bits.take n = s.streamBits s.bp n := by
  rw [State.rest, State.streamBits, ← List.map_take, List.take_range, Nat.min_eq_left (by omega), State.streamBits]

/-- The bits that IN has left from bp on. -/
@[simp] theorem rest_bits_length (s : State) : s.rest.bits.length = 8 * s.inLen.toNat - s.bp := by
  simp [State.rest, State.streamBits]

/-- Dropping the buffered bits moves bp up to the next byte boundary, or leaves it at one (R102). -/
theorem alignToByte_bp {s : State} (h : s.cursorOk) : (alignToByte s).bp = 8 * ((s.bp + 7) / 8) := by
  obtain ⟨few, cnt, -, -⟩ := h
  have boundary : (alignToByte s).bp = 8 * s.inPos.toNat := rfl
  rw [boundary, State.bp]
  omega

/-- Settles O9: the bits still to come at the cursor are the rest of the stream, and ReadBits reads their front. -/
theorem readBitsReadsStream : Obligations.ReadBitsReadsStream := by
  intro s n ok hn hn'
  obtain ⟨enough, few⟩ := readBits_cursorBits hn' s
  rw [cursorBits_eq_rest ok, rest_bits_length] at enough few
  refine ⟨fun fits => ?_, fun short => few (by omega), alignToByte_bp ok⟩
  obtain ⟨t, read, -, only, -⟩ := enough (by omega)
  obtain ⟨ok', bp⟩ := readBits_cursorOk hn hn' ok read
  rw [take_rest_bits fits] at read
  exact ⟨t, read, bp, ok', only⟩

end Sys2Proof.Machine
end

section
/-! SUPPORT. Build as a sort (R110, R111): the places of each length hold the symbols of that length in order of their index, and a
walk reads no other places (R114, R115, R116). -/

namespace Sys2Proof.Machine

/-! ## The symbols of one length -/

/-- The symbols of length `L`, in order of their index, when the lengths `ls` are those of `sym` and the symbols after it. -/
def symbolsOfLength (ls : List Nat) (sym L : Nat) : List (BitVec 9) :=
  ((List.range ls.length).filter fun i => ls.getD i 0 = L).map fun i => BitVec.ofNat 9 (sym + i)

theorem symbolsOfLength_cons (l : Nat) (ls : List Nat) (sym L : Nat) :
    symbolsOfLength (l :: ls) sym L =
      if l = L then BitVec.ofNat 9 sym :: symbolsOfLength ls (sym + 1) L else symbolsOfLength ls (sym + 1) L := by
  have tail : ((fun i => decide ((l :: ls).getD i 0 = L)) ∘ Nat.succ) = fun i => decide (ls.getD i 0 = L) := rfl
  have later : (fun i => BitVec.ofNat 9 (sym + i)) ∘ Nat.succ = fun i => BitVec.ofNat 9 (sym + 1 + i) :=
    funext fun i => by rw [Function.comp_apply, Nat.succ_eq_add_one, Nat.add_right_comm, Nat.add_assoc]
  rw [symbolsOfLength, List.length_cons, List.range_succ_eq_map, List.filter_cons, List.filter_map, tail, symbolsOfLength,
    ← later, ← List.map_map]
  simp only [List.getD_cons_zero, decide_eq_true_eq]
  split <;> rfl

theorem symbolsOfLength_length (ls : List Nat) (sym L : Nat) : (symbolsOfLength ls sym L).length = ls.count L := by
  induction ls generalizing sym with
  | nil => rfl
  | cons l ls ih =>
    rw [symbolsOfLength_cons, List.count_cons]
    by_cases h : l = L <;> simp [h, ih]

theorem mem_symbolsOfLength {ls : List Nat} {L : Nat} {v : BitVec 9} (few : ls.length < 512)
    (h : v ∈ symbolsOfLength ls 0 L) : v.toNat < ls.length ∧ ls.getD v.toNat 0 = L := by
  simp only [symbolsOfLength, List.mem_map, List.mem_filter, List.mem_range, decide_eq_true_eq, Nat.zero_add] at h
  obtain ⟨i, ⟨hi, len⟩, rfl⟩ := h
  rw [BitVec.toNat_ofNat, Nat.mod_eq_of_lt (by omega)]
  exact ⟨hi, len⟩

/-! ## The counts and the offsets -/

theorem countLengths_getD (ls : List Nat) (c : List (BitVec 16)) {L : Nat} (hL : L ≠ 0) (hc : L < c.length) :
    (countLengths ls c).getD L 0 = c.getD L 0 + BitVec.ofNat 16 (ls.count L) := by
  induction ls generalizing c with
  | nil => simp [countLengths]
  | cons l ls ih =>
    unfold countLengths
    split
    · rename_i h0
      rw [ih c hc, List.count_cons_of_ne (by omega)]
    · rw [ih _ (by simpa using hc)]
      by_cases e : l = L
      · subst e
        rw [getD_set_self _ hc, List.count_cons_self, BitVec.ofNat_add, BitVec.add_assoc, BitVec.add_comm 1]
        rfl
      · rw [getD_set_ne _ e, List.count_cons_of_ne e]

/-- How many symbols have a code shorter than `L` bits. -/
def shorterCodes (lens : List Nat) (L : Nat) : Nat := lens.countP fun l => decide (l ≠ 0 ∧ l < L)

theorem shorterCodes_one (lens : List Nat) : shorterCodes lens 1 = 0 :=
  List.countP_eq_zero.2 fun l _ => by simp only [decide_eq_true_eq]; omega

theorem shorterCodes_succ (lens : List Nat) {L : Nat} (hL : L ≠ 0) :
    shorterCodes lens (L + 1) = shorterCodes lens L + lens.count L := by
  induction lens with
  | nil => rfl
  | cons l ls ih =>
    simp only [shorterCodes, List.countP_cons, List.count_cons, decide_eq_true_eq, beq_iff_eq] at ih ⊢
    split_ifs <;> omega

theorem shorterCodes_mono (lens : List Nat) {L M : Nat} (h : L ≤ M) : shorterCodes lens L ≤ shorterCodes lens M :=
  List.countP_mono_left fun l _ => by simp only [decide_eq_true_eq]; omega

theorem shorterCodes_le_length (lens : List Nat) (L : Nat) : shorterCodes lens L ≤ lens.length := List.countP_le_length

/-- Every code has at most 15 bits. -/
theorem shorterCodes_all {lens : List Nat} (h : ∀ l ∈ lens, l ≤ 15) :
    shorterCodes lens 16 = lens.countP fun l => l ≠ 0 :=
  List.countP_congr fun l hl => by
    have := h l hl
    simp only [decide_eq_true_eq]
    omega

theorem offsetsFrom_getD_succ (cs : List (BitVec 16)) (acc : Nat) {L : Nat} (h : L + 1 < cs.length) :
    (offsetsFrom cs acc).getD (L + 1) 0 = (offsetsFrom cs acc).getD L 0 + (cs.getD L 0).toNat := by
  induction cs generalizing acc L with
  | nil => cases h
  | cons c cs ih =>
    cases L with
    | zero =>
      obtain ⟨d, ds, rfl⟩ := List.exists_cons_of_length_pos (l := cs) (by simpa using h)
      rfl
    | succ L => exact ih (acc + c.toNat) (by simpa using h)

theorem offsetsFrom_getD_zero (cs : List (BitVec 16)) : (offsetsFrom cs 0).getD 0 0 = 0 := by cases cs <;> rfl

section
variable (unset : Nat → BitVec 9) (cap : Nat) {lens : List Nat} {L : Nat}

theorem build_offsets_length : (offsetsFrom (build unset cap lens).counts 0).length = 16 := by
  rw [offsetsFrom_length]
  exact (build_shaped unset cap lens).1

theorem build_count (few : lens.length < 512) (hL : L ≠ 0) (hL' : L < 16) :
    (build unset cap lens).count L = lens.count L := by
  have le := List.count_le_length (a := L) (l := lens)
  have start : (List.replicate 16 (0 : BitVec 16)).getD L 0 = 0 := List.getD_replicate 0 hL'
  have counted := countLengths_getD lens (List.replicate 16 0) hL (by simpa using hL')
  rw [start, zero_add] at counted
  rw [Table.count, build, counted, BitVec.toNat_ofNat, Nat.mod_eq_of_lt (by omega)]

theorem build_offset (few : lens.length < 512) (hL : L ≠ 0) (hL' : L < 16) :
    (offsetsFrom (build unset cap lens).counts 0).getD L 0 = shorterCodes lens L := by
  obtain ⟨size, zero, -⟩ := build_shaped unset cap lens
  induction L with
  | zero => exact absurd rfl hL
  | succ L ih =>
    rw [offsetsFrom_getD_succ _ _ (by omega)]
    by_cases h : L = 0
    · subst h
      rw [zero, offsetsFrom_getD_zero, shorterCodes_one]
      rfl
    · rw [ih h (by omega), shorterCodes_succ lens h]
      exact congrArg _ (build_count unset cap few h (by omega))

end

/-! ## The placing loop -/

/-- Place `i` is one of those that the symbols of length `L` among `ls` will fill. -/
def fillsPlace (offs ls : List Nat) (L i : Nat) : Prop := offs.getD L 0 ≤ i ∧ i < offs.getD L 0 + ls.count L

theorem fillsPlace_cons_zero {offs ls : List Nat} {L i : Nat} (hL : L ≠ 0) :
    fillsPlace offs (0 :: ls) L i ↔ fillsPlace offs ls L i := by rw [fillsPlace, List.count_cons_of_ne hL.symm, fillsPlace]

theorem fillsPlace_head (offs ls : List Nat) (l : Nat) : fillsPlace offs (l :: ls) l (offs.getD l 0) := by
  rw [fillsPlace, List.count_cons_self]
  omega

/-- Once a symbol of length `l` is placed, its place is not filled again. -/
theorem fillsPlace_set {offs ls : List Nat} {l L i : Nat} (hl : l < offs.length) :
    fillsPlace (offs.set l (offs.getD l 0 + 1)) ls L i ↔
      fillsPlace offs (l :: ls) L i ∧ (l = L → offs.getD l 0 ≠ i) := by
  by_cases e : l = L
  · subst e
    simp only [fillsPlace, getD_set_self _ hl, List.count_cons_self, true_implies]
    omega
  · simp only [fillsPlace, getD_set_ne _ e, List.count_cons_of_ne e, e, false_implies, and_true]

theorem placeSymbols_getElem?_of_not_fills {i : Nat} (ls : List Nat) (sym : Nat) (offs : List Nat) (symbols : List (BitVec 9))
    (legal : ∀ l ∈ ls, l < offs.length) (free : ∀ L, L ≠ 0 → L < offs.length → ¬ fillsPlace offs ls L i) :
    (placeSymbols ls sym offs symbols)[i]? = symbols[i]? := by
  induction ls generalizing sym offs symbols with
  | nil => rfl
  | cons l ls ih =>
    obtain ⟨hl, legal'⟩ := List.forall_mem_cons.1 legal
    unfold placeSymbols
    split
    · rename_i h0
      subst h0
      exact ih _ _ _ legal' fun L h0 hL => mt (fillsPlace_cons_zero h0).2 (free L h0 hL)
    · rename_i h0
      have elsewhere : offs.getD l 0 ≠ i := fun e => free l h0 hl (e ▸ fillsPlace_head offs ls l)
      rw [ih _ _ _ (by simpa using legal') fun L h0 hL fills =>
        free L h0 (by simpa using hL) ((fillsPlace_set hl).1 fills).1, List.getElem?_set_ne elsewhere]

/-- The places of length `L` receive its symbols in order of their index, when no other length fills them too. -/
theorem placeSymbols_getElem?_of_fills {i L : Nat} (ls : List Nat) (sym : Nat) (offs : List Nat) (symbols : List (BitVec 9))
    (legal : ∀ l ∈ ls, l < offs.length) (hi : i < symbols.length) (h0 : L ≠ 0) (fills : fillsPlace offs ls L i)
    (alone : ∀ M, M ≠ 0 → M < offs.length → fillsPlace offs ls M i → M = L) :
    (placeSymbols ls sym offs symbols)[i]? = (symbolsOfLength ls sym L)[i - offs.getD L 0]? := by
  induction ls generalizing sym offs symbols with
  | nil => obtain ⟨lo, hi⟩ := fills; rw [List.count_nil] at hi; omega
  | cons l ls ih =>
    obtain ⟨hl, legal'⟩ := List.forall_mem_cons.1 legal
    have legalSet : ∀ l' ∈ ls, l' < (offs.set l (offs.getD l 0 + 1)).length := by simpa using legal'
    have aloneSet : ∀ M, M ≠ 0 → M < (offs.set l (offs.getD l 0 + 1)).length →
        fillsPlace (offs.set l (offs.getD l 0 + 1)) ls M i → M = L := fun M hM hM' f =>
      alone M hM (by simpa using hM') ((fillsPlace_set hl).1 f).1
    rw [symbolsOfLength_cons]
    unfold placeSymbols
    split
    · rename_i zero
      subst zero
      rw [if_neg h0.symm]
      exact ih _ _ _ legal' hi ((fillsPlace_cons_zero h0).1 fills) fun M hM hM' f =>
        alone M hM hM' ((fillsPlace_cons_zero hM).2 f)
    rename_i nonzero
    by_cases place : offs.getD l 0 = i
    · obtain rfl : l = L := alone l nonzero hl (place ▸ fillsPlace_head offs ls l)
      rw [placeSymbols_getElem?_of_not_fills _ _ _ _ legalSet fun M hM hM' f =>
        ((fillsPlace_set hl).1 f).2 (aloneSet M hM hM' f).symm place]
      rw [if_pos rfl, place, List.getElem?_set_self hi, Nat.sub_self, List.getElem?_cons_zero]
    · rw [ih _ _ _ legalSet (by simpa using hi) ((fillsPlace_set hl).2 ⟨fills, fun _ => place⟩) aloneSet]
      by_cases e : l = L
      · subst e
        obtain ⟨lo, -⟩ := fills
        rw [if_pos rfl, getD_set_self _ hl, show i - offs.getD l 0 = i - (offs.getD l 0 + 1) + 1 by omega,
          List.getElem?_cons_succ]
      · rw [if_neg e, getD_set_ne _ e]

/-! ## What Build lists -/

/-- Build's last step is the placing loop (R110). -/
theorem build_symbols (unset : Nat → BitVec 9) (cap : Nat) (lens : List Nat) :
    (build unset cap lens).symbols =
      placeSymbols lens 0 (offsetsFrom (build unset cap lens).counts 0) ((List.range cap).map unset) := rfl

section
variable (unset : Nat → BitVec 9) {cap : Nat} {lens : List Nat}

/-- The places that Build fills for a length lie between those of the shorter and those of the longer codes (R110). -/
theorem build_fillsPlace_iff (few : lens.length < 512) {L : Nat} (i : Nat) (h0 : L ≠ 0)
    (hL : L < (offsetsFrom (build unset cap lens).counts 0).length) :
    fillsPlace (offsetsFrom (build unset cap lens).counts 0) lens L i ↔
      shorterCodes lens L ≤ i ∧ i < shorterCodes lens (L + 1) := by
  rw [build_offsets_length] at hL
  rw [fillsPlace, build_offset unset cap few h0 hL, shorterCodes_succ lens h0]

variable (legal : ∀ l ∈ lens, l ≤ 15) (room : lens.length ≤ cap) (few : lens.length < 512)

include legal in
theorem build_offsets_legal : ∀ l ∈ lens, l < (offsetsFrom (build unset cap lens).counts 0).length := fun l hl => by
  rw [build_offsets_length]
  exact Nat.lt_succ_of_le (legal l hl)

include legal few

/-- The entries past the counts are `unset`'s (R110; U5). -/
theorem build_symbols_drop :
    (build unset cap lens).symbols.drop (shorterCodes lens 16) = ((List.range cap).map unset).drop (shorterCodes lens 16) := by
  refine List.ext_getElem? fun i => ?_
  rw [List.getElem?_drop, List.getElem?_drop, build_symbols]
  refine placeSymbols_getElem?_of_not_fills lens 0 _ _ (build_offsets_legal unset legal) fun L h0 hL => ?_
  rw [build_fillsPlace_iff unset few _ h0 hL]
  rw [build_offsets_length] at hL
  have := shorterCodes_mono lens (show L + 1 ≤ 16 from hL)
  omega

include room

/-- After the shorter codes' symbols, Build lists those of length `L` in order of their index (R110, R111). -/
theorem build_symbols_slice {L : Nat} (h0 : L ≠ 0) (hL : L < 16) :
    ((build unset cap lens).symbols.drop (shorterCodes lens L)).take (lens.count L) = symbolsOfLength lens 0 L := by
  have next := shorterCodes_succ lens h0
  have bound := shorterCodes_le_length lens (L + 1)
  have inside : L < (offsetsFrom (build unset cap lens).counts 0).length := by rwa [build_offsets_length]
  refine List.ext_getElem? fun j => ?_
  by_cases hj : j < lens.count L
  · have alone : ∀ M, M ≠ 0 → M < (offsetsFrom (build unset cap lens).counts 0).length →
        fillsPlace (offsetsFrom (build unset cap lens).counts 0) lens M (shorterCodes lens L + j) → M = L := by
      intro M hM hM' fills
      obtain ⟨lo, hi⟩ := (build_fillsPlace_iff unset few _ hM hM').1 fills
      rcases Nat.lt_trichotomy M L with shorter | same | longer
      · have := shorterCodes_mono lens (show M + 1 ≤ L from shorter)
        omega
      · exact same
      · have := shorterCodes_mono lens (show L + 1 ≤ M from longer)
        omega
    rw [List.getElem?_take_of_lt hj, List.getElem?_drop, build_symbols,
      placeSymbols_getElem?_of_fills lens 0 _ _ (build_offsets_legal unset legal) (by simp; omega) h0
        ((build_fillsPlace_iff unset few _ h0 inside).2 (by omega)) alone,
      build_offset unset cap few h0 hL, Nat.add_sub_cancel_left]
  · rw [List.getElem?_eq_none (by simp; omega), List.getElem?_eq_none (by rw [symbolsOfLength_length]; omega)]

/-- The listing, shortest codes first (R111). -/
theorem build_symbols_take {n : Nat} (hn : n < 16) :
    (build unset cap lens).symbols.take (shorterCodes lens (n + 1)) =
      (List.range n).flatMap fun k => symbolsOfLength lens 0 (k + 1) := by
  induction n with
  | zero => rw [shorterCodes_one]; rfl
  | succ n ih =>
    rw [shorterCodes_succ lens (by omega), List.take_add, ih (by omega),
      build_symbols_slice unset legal room few (by omega) hn, List.range_succ, List.flatMap_append, List.flatMap_singleton]

/-- A walk's comparison at length `L` picks a symbol of that length (R115). -/
theorem build_symbolAt {L j : Nat} (h0 : L ≠ 0) (hL : L < 16) (hj : j < lens.count L) (draw : Nat) :
    ((build unset cap lens).symbolAt draw (shorterCodes lens L + j)).toNat < lens.length ∧
      lens.getD ((build unset cap lens).symbolAt draw (shorterCodes lens L + j)).toNat 0 = L := by
  have entry : j < (symbolsOfLength lens 0 L).length := by rwa [symbolsOfLength_length]
  have at' : (build unset cap lens).symbols[shorterCodes lens L + j]? = some (symbolsOfLength lens 0 L)[j] := by
    rw [← List.getElem?_drop, ← List.getElem?_take_of_lt hj, build_symbols_slice unset legal room few h0 hL,
      List.getElem?_eq_getElem entry]
  rw [Table.symbolAt, at', Option.getD_some]
  exact mem_symbolsOfLength few (List.getElem_mem entry)

end

theorem build_counts (unset : Nat → BitVec 9) (cap : Nat) {lens : List Nat} (few : lens.length < 512) :
    (build unset cap lens).counts = (List.range 16).map fun L => if L = 0 then 0 else BitVec.ofNat 16 (lens.count L) := by
  obtain ⟨size, zero, -⟩ := build_shaped unset cap lens
  refine List.ext_getElem (by simpa using size) fun L hL _ => ?_
  rw [← List.getD_eq_getElem _ 0 hL, List.getElem_map, List.getElem_range]
  split
  · rename_i h0
    rw [h0, zero]
  · rename_i h0
    rw [← build_count unset cap few h0 (by omega), Table.count, BitVec.ofNat_toNat, BitVec.setWidth_eq]

/-- Building over the table that TBL names draws the free values of that table (R110, R283; notes/assumptions/22.md). -/
theorem built_eq (s : State) (tbl : BitVec 2) (lens : List Nat) :
    s.built tbl lens =
      build (Config.free 9 (if tbl = 0 then .litSymbol else if tbl = 1 then .distSymbol else .clenSymbol) s.tick)
        (if tbl = 0 then 288 else if tbl = 1 then 32 else 19) lens := by
  have names : ∀ t : BitVec 2,
      symbolName t = if t = 0 then .litSymbol else if t = 1 then .distSymbol else .clenSymbol := by decide
  have caps : ∀ t : BitVec 2, tableCap t = if t = 0 then 288 else if t = 1 then 32 else 19 := by decide
  rw [State.built, names, caps]

/-- Settles O5: the listing up to the longest codes, then the entries that the placing loop leaves alone. -/
theorem buildSortsSymbols : Obligations.BuildSortsSymbols := by
  intro unset cap lens legal room few
  refine ⟨build_counts unset cap few, rfl, ?_, fun s tbl => built_eq s tbl lens⟩
  have listed := build_symbols_take unset legal room few (n := 15) (by decide)
  simp only [symbolsOfLength, Nat.zero_add] at listed
  rw [← listed, ← shorterCodes_all legal, ← build_symbols_drop unset legal few, List.take_append_drop]

/-- Settles O6: the literal/length table entry by entry, the distance table as Build sorts 30 equal lengths. -/
theorem fixedTablesAsBuilt : Obligations.FixedTablesAsBuilt := by
  intro unset
  obtain ⟨counts, n, symbols, -⟩ := buildSortsSymbols unset 32 fixedDistLens (by decide) (by decide) (by decide)
  exact ⟨build_fixedLitLens unset, counts.trans (by decide), n, symbols.trans rfl⟩

/-! ## A walk over a built table -/

/-- How a walk ends that has `fuel` lengths from `L` on to try: at a symbol, after the bits of its length; or without a match
in `fuel` bits; or at the end of the bits (R114, R116). -/
def walkEnds (lens : List Nat) (L fuel : Nat) (x : BitList) : Except DecodeError (BitVec 9 × BitList) → Prop
  | .ok (sym, y) =>
    ∃ k, sym.toNat < lens.length ∧ lens.getD sym.toNat 0 = L + k ∧ y = { pos := x.pos + (k + 1), bits := x.bits.drop (k + 1) }
  | .error .huffNoMatch => fuel ≤ x.bits.length
  | .error .truncated => x.bits.length < fuel
  | .error .noSuchSymbol => False

/-- A comparison that fails costs one bit and one length. -/
theorem walkEnds_cons {lens : List Nat} {L fuel pos : Nat} {b : Bool} {bits : List Bool}
    {r : Except DecodeError (BitVec 9 × BitList)} (h : walkEnds lens (L + 1) fuel { pos := pos + 1, bits := bits } r) :
    walkEnds lens L (fuel + 1) { pos := pos, bits := b :: bits } r := by
  match r, h with
  | .ok (sym, y), ⟨k, below, len, rest⟩ =>
    refine ⟨k + 1, below, by omega, ?_⟩
    rw [rest, List.drop_succ_cons, Nat.add_assoc, Nat.add_comm 1]
  | .error .huffNoMatch, h => exact Nat.succ_le_succ h
  | .error .truncated, h => exact Nat.succ_lt_succ h

/-- A walk over a built table, from length `L` on: the shorter codes' symbols are behind it, and `first` is no larger than
`code` (R115). -/
theorem walk_build_ends (unset : Nat → BitVec 9) {cap : Nat} {lens : List Nat} (legal : ∀ l ∈ lens, l ≤ 15)
    (room : lens.length ≤ cap) (few : lens.length < 512) (draw : Nat) {fuel L code first : Nat} (h0 : L ≠ 0)
    (hL : L + fuel ≤ 16) (le : first ≤ code) (x : BitList) :
    walkEnds lens L fuel x
      (walk bitListSource (build unset cap lens) draw fuel L code first (shorterCodes lens L) x) := by
  induction fuel generalizing L code first x with
  | zero => exact Nat.zero_le _
  | succ fuel ih =>
    obtain ⟨pos, bits⟩ := x
    cases bits with
    | nil => exact Nat.succ_pos fuel
    | cons b bits =>
      have bit : bitListSource.read 1 { pos := pos, bits := b :: bits } = some (b.toNat, { pos := pos + 1, bits := bits }) :=
        BitList.read_append [b]
      simp only [walk, bit, build_count unset cap few h0 (show L < 16 by omega)]
      split
      · rename_i found
        obtain ⟨below, len⟩ := build_symbolAt unset legal room few (j := code + b.toNat - first) h0 (by omega) (by omega) draw
        exact ⟨0, below, len, rfl⟩
      · rw [← shorterCodes_succ lens h0]
        exact walkEnds_cons (ih (by omega) (by omega) (by omega) _)

/-- Settles O8: DecodeSym is the walk from length 1, with no shorter codes behind it. -/
theorem walkReadsOnlyBuiltEntries : Obligations.WalkReadsOnlyBuiltEntries := by
  intro unset cap lens draw x legal room few
  have ends := walk_build_ends unset legal room few draw (fuel := Config.maxBits) one_ne_zero (by decide) (Nat.le_refl 0) x
  rw [shorterCodes_one, ← decodeSym] at ends
  revert ends
  match decodeSym bitListSource (build unset cap lens) draw x with
  | .ok (sym, y) =>
    rintro ⟨k, below, len, rfl⟩
    rw [Nat.add_comm] at len
    exact ⟨below, by omega, by rw [len], by rw [len]⟩
  | .error .huffNoMatch => exact id
  | .error .truncated => exact id
  | .error .noSuchSymbol => exact id

end Sys2Proof.Machine
end

section
/-! SUPPORT. Stored blocks, literals and the code lengths of a dynamic block: one instruction each (R138 to R141, R147 to R154, R160,
R161). -/

namespace Sys2Proof.Machine

/-! ## STORED_HEADER (R140) -/

theorem fieldBits_mod (n v : Nat) : fieldBits n (v % 2 ^ n) = fieldBits n v := by
  induction n generalizing v with
  | zero => rfl
  | succ n ih => rw [fieldBits, fieldBits, Nat.pow_succ', Nat.mod_mul_right_mod, Nat.mod_mul_right_div_self, ih]

/-- A field is its low bits, then the field of its high bits (R68). -/
theorem fieldBits_add (m n v : Nat) : fieldBits (m + n) v = fieldBits m v ++ fieldBits n (v / 2 ^ m) := by
  induction m generalizing v with
  | zero => simp [fieldBits]
  | succ m ih => rw [Nat.succ_add, fieldBits, fieldBits, ih, Nat.div_div_eq_div_mul, ← Nat.pow_succ', List.cons_append]

/-- The low part of a field comes first: integers are little-endian in the stream (R70). -/
theorem fieldBits_toNat_append {m n : Nat} (high : BitVec m) (low : BitVec n) :
    fieldBits (n + m) (high ++ low).toNat = fieldBits n low.toNat ++ fieldBits m high.toNat := by
  have back : (high.toNat * 2 ^ n + low.toNat) / 2 ^ n = high.toNat := by
    rw [Nat.mul_comm, Nat.mul_add_div (Nat.two_pow_pos n), Nat.div_eq_of_lt low.isLt, Nat.add_zero]
  rw [fieldBits_add, toNat_append_eq_add, back, ← fieldBits_mod n, Nat.mul_add_mod', fieldBits_mod]

theorem readField_short {n : Nat} {x : BitList} (h : x.bits.length < n) :
    readField bitListSource n x = .error .truncated := by
  have out : bitListSource.read n x = none := if_pos h
  rw [readField, out]

theorem readField_enough {n : Nat} {x : BitList} (h : n ≤ x.bits.length) :
    ∃ v, readField bitListSource n x = .ok (v, { pos := x.pos + n, bits := x.bits.drop n }) := by
  have front : bitListSource.read n x = some _ := if_neg (Nat.not_lt.2 h)
  exact ⟨_, by rw [readField, front]⟩

theorem decodeStoredHeader_short {x : BitList} (h : x.bits.length < padLength x.pos + 32) :
    decodeStoredHeader bitListSource x = .error .truncated := by
  have left : (bitListSource.align x).bits.length = x.bits.length - padLength x.pos := List.length_drop
  unfold decodeStoredHeader
  by_cases len : 16 ≤ (bitListSource.align x).bits.length
  · obtain ⟨v, read⟩ := readField_enough len
    simp only [read]
    rw [readField_short (by rw [List.length_drop, left]; omega)]
  · rw [readField_short (Nat.not_le.1 len)]

/-- Matching lengths: the payload follows, or the block ends (R140). -/
theorem execStoredHeader_matches {len nlen : BitVec 16} (h : len = ~~~nlen) (s : State) :
    execStoredHeader len nlen s =
      if len = 0 then .next (endOfBlock { s with storedRem := len }) else .next { s with storedRem := len, st := .storedByte } :=
  if_neg (not_not.2 h)

theorem execStoredHeader_empty {len nlen : BitVec 16} (h : len = ~~~nlen) (zero : len = 0) (s : State) :
    execStoredHeader len nlen s = .next (endOfBlock { s with storedRem := 0 }) := by
  rw [execStoredHeader_matches h, if_pos zero, zero]

theorem bfinal_ne_one {f : BitVec 1} (h : f = 0) : f ≠ 1 := by rw [h]; decide

/-- Settles O13: the two bytes of a field are one field of 16 bits, and the meaning is its three cases. -/
theorem storedHeaderChecksLength : Obligations.StoredHeaderChecksLength := by
  refine ⟨fun c pos pad rest l0 l1 n0 n1 padded => ?_, fun c x short => decodeStoredHeader_short short, fun s len nlen => ?_⟩
  · have len := fieldBits_toNat_append l1 l0
    have nlen := fieldBits_toNat_append n1 n0
    rw [← List.append_assoc (fieldBits 8 n0.toNat), ← nlen, ← List.append_assoc (fieldBits 8 l0.toNat), ← len, decode,
      decodeStoredHeader, align_append padded]
    simp only [readField_toNat, Nat.add_assoc]
  · refine ⟨fun differ => if_pos differ, fun same some => ?_, fun same zero final => ?_, fun same zero more => ?_⟩
    · exact (execStoredHeader_matches same s).trans (if_neg some)
    · exact (execStoredHeader_empty same zero s).trans (congrArg _ (endOfBlock_final final))
    · exact (execStoredHeader_empty same zero s).trans (congrArg _ (endOfBlock_more (bfinal_ne_one more)))

/-! ## LIT, STORED_BYTE and EOB (R138 to R141, R160, R161) -/

/-- Emit with room writes OUT[OUT_LEN] alone (R138). -/
theorem emit_written {s : State} (b : Byte) (room : s.outLen.toNat < s.outCap.toNat) :
    ∃ t, emit b s = .ok t ∧ t.outByte s.outLen.toNat = b ∧ s.outOnly t s.outLen.toNat 1 ∧
      t = { s with mem := t.mem, outLen := s.outLen + 1 } := by
  have notFull : s.outLen ≠ s.outCap := fun full => absurd room (by rw [full]; exact Nat.lt_irrefl _)
  refine ⟨_, emit_room b notFull, ?_, fun a other => ?_, rfl⟩
  · exact (memRead_memWrite s _ _ b).trans (if_pos rfl)
  · exact (memRead_memWrite s _ a b).trans (if_neg (other 0 Nat.one_pos))

/-- The end of a block as one update (R139). -/
theorem endOfBlock_eq (s : State) :
    endOfBlock s =
      { s with st := if s.bfinal = 1 then .idle else .hdr, state := if s.bfinal = 1 then .done else s.state } := by
  by_cases final : s.bfinal = 1
  · simp only [endOfBlock_final final, complete, if_pos final]
  · simp only [endOfBlock_more final, if_neg final]

/-- Counting a stored byte as one update: the last one ends the block (R139, R141). -/
theorem storedByteDone_eq (s : State) :
    storedByteDone s =
      { s with
        storedRem := s.storedRem - 1
        st := if s.storedRem = 1 then (if s.bfinal = 1 then .idle else .hdr) else s.st
        state := if s.storedRem = 1 ∧ s.bfinal = 1 then .done else s.state } := by
  have last : s.storedRem - 1 = 0 ↔ s.storedRem = 1 := by bv_omega
  unfold storedByteDone
  by_cases h : s.storedRem = 1
  · rw [if_pos (last.2 h), endOfBlock_eq]
    simp only [h, true_and, if_true]
  · rw [if_neg (mt last.1 h)]
    simp only [h, false_and, if_false]

section
variable {s t : State} {b : Byte}

theorem execLit_emitted (h : emit b s = .ok t) : execLit b s = .next { t with st := .sym } := by rw [execLit, h]; rfl

theorem execStoredByte_emitted (h : emit b s = .ok t) : execStoredByte b s = .next (storedByteDone t) := by
  rw [execStoredByte, h]; rfl

theorem execLit_full (h : s.outLen = s.outCap) : execLit b s = .next (raiseInflate .outOverflow s) := by
  rw [execLit, emit_full b h]; rfl

theorem execStoredByte_full (h : s.outLen = s.outCap) : execStoredByte b s = .next (raiseInflate .outOverflow s) := by
  rw [execStoredByte, emit_full b h]; rfl

end

/-- Settles O14: LIT and STORED_BYTE are Emit and what follows it; EOB is the end of a block. -/
theorem literalsAndEndOfBlock : Obligations.LiteralsAndEndOfBlock := by
  intro s b
  refine ⟨fun room => ?_, fun full => ⟨execLit_full full, execStoredByte_full full⟩,
    fun final => congrArg _ (endOfBlock_final final), fun more => congrArg _ (endOfBlock_more (bfinal_ne_one more))⟩
  obtain ⟨t, emitted, byte, only, frame⟩ := emit_written b room
  refine ⟨⟨_, execLit_emitted emitted, byte, only, by rw [frame]⟩, ⟨_, execStoredByte_emitted emitted, ?_⟩⟩
  rw [storedByteDone_eq]
  exact ⟨byte, only, by rw [frame]⟩

/-! ## DYN_CL_LENGTHS (R147) -/

theorem scatterLengths_getD_of_notMem {os : List Nat} {o : Nat} (h : o ∉ os) (ls cl : List (BitVec 3)) :
    (scatterLengths os ls cl).getD o 0 = cl.getD o 0 := by
  fun_induction scatterLengths os ls cl with
  | case1 p os l ls cl ih =>
    obtain ⟨ne, rest⟩ := List.ne_and_not_mem_of_not_mem_cons h
    rw [ih rest, getD_set_ne cl (Ne.symm ne)]
  | case2 => rfl

/-- Lengths scattered to distinct places over zeros: each place has its length, or 0 where the lengths ended. -/
theorem scatterLengths_getD {os : List Nat} (distinct : os.Nodup) (ls cl : List (BitVec 3)) (legal : ∀ o ∈ os, o < cl.length)
    (zero : ∀ o ∈ os, cl.getD o 0 = 0) {i : Nat} (hi : i < os.length) :
    (scatterLengths os ls cl).getD (os.getD i 0) 0 = ls.getD i 0 := by
  induction os generalizing ls cl i with
  | nil => exact absurd hi (Nat.not_lt_zero i)
  | cons o os ih =>
    obtain ⟨fresh, distinct⟩ := List.nodup_cons.1 distinct
    cases ls with
    | nil => exact zero _ (by rw [List.getD_eq_getElem _ 0 hi]; exact List.getElem_mem hi)
    | cons l ls =>
      rw [scatterLengths]
      cases i with
      | zero =>
        rw [List.getD_cons_zero, List.getD_cons_zero, scatterLengths_getD_of_notMem fresh,
          getD_set_self cl (legal o List.mem_cons_self)]
      | succ i =>
        rw [List.getD_cons_succ, List.getD_cons_succ]
        refine ih distinct ls (cl.set o l) (fun p hp => ?_) (fun p hp => ?_) (Nat.lt_of_succ_lt_succ hi)
        · rw [List.length_set]; exact legal p (List.mem_cons_of_mem _ hp)
        · rw [getD_set_ne cl (ne_of_mem_of_not_mem hp fresh).symm, zero p (List.mem_cons_of_mem _ hp)]

/-- Settles O16: CL_ORDER names every entry of CL_LENS once, so each length lands on a zero. -/
theorem codeLengthCodeLengths : Obligations.CodeLengthCodeLengths := by
  intro s lens _
  have legal : ∀ o ∈ clOrder, o < (List.replicate Config.clenCap (0 : BitVec 3)).length := by decide
  have zero : ∀ o ∈ clOrder, (List.replicate Config.clenCap (0 : BitVec 3)).getD o 0 = 0 := by decide
  have distinct : clOrder.Nodup := by decide
  exact ⟨_, rfl, (scatterLengths_length _ _ _).trans List.length_replicate,
    fun i hi => scatterLengths_getD distinct lens _ legal zero hi, rfl, rfl⟩

/-! ## The code-length symbols (R149 to R154) -/

theorem lengthsDone_complete {s : State} (h : s.lensIdx.toNat = s.lensTotal) :
    lengthsDone s =
      { s with
        lit := s.built 0 ((s.lens.take s.hlit.toNat).map BitVec.toNat)
        dist := s.built 1 (((s.lens.drop s.hlit.toNat).take s.hdist.toNat).map BitVec.toNat)
        st := .sym } := if_pos h

/-- A run that fits is written, and the tables are built when it completes the lengths (R154). -/
theorem runWritten_lengthsDone {s : State} {r : Nat} (v : BitVec 4) (few : s.lensTotal ≤ 320)
    (fits : s.lensIdx.toNat + r ≤ s.lensTotal) :
    runWritten v r s
      (lengthsDone { s with lens := fillLens v r s.lensIdx.toNat s.lens, lensIdx := s.lensIdx + BitVec.ofNat 9 r }) := by
  have idx : (s.lensIdx + BitVec.ofNat 9 r).toNat = s.lensIdx.toNat + r := by
    rw [BitVec.toNat_add, BitVec.toNat_ofNat]; omega
  have length := fillLens_length v r s.lensIdx.toNat s.lens
  have entries := fun k hk => fillLens_getD v r s.lensIdx.toNat k s.lens hk
  by_cases complete : s.lensIdx.toNat + r = s.lensTotal
  · rw [lengthsDone_complete (idx.trans complete)]
    refine ⟨idx, length, entries, ?_, rfl⟩
    rw [if_pos complete]; exact ⟨rfl, rfl, rfl⟩
  · rw [lengthsDone_more fun h => complete (idx.symm.trans h)]
    refine ⟨idx, length, entries, ?_, rfl⟩
    rw [if_neg complete]; exact ⟨rfl, rfl, rfl⟩

theorem runLengths_fits {s : State} {v : BitVec 4} {r : Nat} (few : s.lensTotal ≤ 320)
    (fits : s.lensIdx.toNat + r ≤ s.lensTotal) : ∃ t, runLengths v r s = .next t ∧ runWritten v r s t :=
  ⟨_, if_neg (Nat.not_lt.2 fits), runWritten_lengthsDone v few fits⟩

theorem runLengths_overflow {s : State} {v : BitVec 4} {r : Nat} (h : s.lensTotal < s.lensIdx.toNat + r) :
    runLengths v r s = .next (raiseInflate .repeatOverflow s) := if_pos h

theorem execClRepeatPrev_run {s : State} (h : s.lensIdx ≠ 0) (e : BitVec 2) :
    execClRepeatPrev e s = runLengths (s.lens.getD (s.lensIdx.toNat - 1) 0) (3 + e.toNat) s := if_neg h

/-- Settles O17: CL_LEN is a run of one, and the other symbols are runs that fit or overflow. -/
theorem codeLengthSymbols : Obligations.CodeLengthSymbols := by
  intro s _ few
  refine ⟨fun l fits => ⟨_, rfl, runWritten_lengthsDone l few fits⟩, fun e some fits => ?_,
    fun e fits => runLengths_fits few fits, fun e fits => runLengths_fits few fits,
    fun e none => if_pos none, fun e some past => ?_, fun e past => runLengths_overflow past,
    fun e past => runLengths_overflow past⟩
  · show ∃ t, execClRepeatPrev e s = .next t ∧ _
    rw [execClRepeatPrev_run some]
    exact runLengths_fits few fits
  · exact (execClRepeatPrev_run some e).trans (runLengths_overflow past)

end Sys2Proof.Machine
end

section
/-! SUPPORT. What an element of INFLATE raises, and where: a detail of class CorruptDeflateStream at the element's start (R163,
R164, R301, R302, R305), and the other reserved encodings (R247, R254, R288). -/

namespace Sys2Proof.Machine

/-! ## Reserved encodings -/

theorem filterTypeRaise_windows {s : State} (h : s.windowsOk = true) :
    filterTypeRaise s = .next (raise .filter .filterTypeInvalid noPos s) := by rw [filterTypeRaise, if_pos h]

theorem filterTypeRaise_badWindows {s : State} (h : s.windowsOk = false) :
    filterTypeRaise s = .next (raise .filter .argInvalid noPos s) := by
  rw [filterTypeRaise, if_neg (by rw [h]; exact Bool.false_ne_true)]

/-- Settles O24: the meaning of each reserved encoding is its raise. -/
theorem reservedEncodingsRaise : Obligations.ReservedEncodingsRaise := by
  intro s
  refine ⟨?_, ?_, fun f => rfl, fun t => rfl, ?_, ?_⟩
  · rintro i (rfl | rfl) <;> rfl
  · rintro i (rfl | rfl) <;> rfl
  · rintro i (rfl | rfl | rfl) <;> exact ⟨filterTypeRaise_windows, filterTypeRaise_badWindows⟩
  · rintro i (rfl | rfl | rfl) <;> rfl

/-! ## The errors of the stream -/

/-- `t` is `s` with an error of class CorruptDeflateStream, raised as an element of INFLATE raises it (R301, R305). -/
def State.corruptStream (s t : State) : Prop := ∃ d : ErrDetail, d.errClass = 4 ∧ t = raiseInflate d s

theorem emit_error {v : Byte} {s : State} {d : ErrDetail} (h : emit v s = .error d) : d = .outOverflow := by
  unfold emit at h
  split at h <;> cases h
  rfl

theorem copy_error {len dist : Nat} {s : State} {d : ErrDetail} (h : copy len dist s = .error d) : d = .outOverflow := by
  rcases copy_cases len dist s with e | ⟨t, e, -⟩ <;> rw [e] at h <;> cases h
  rfl

/-- The details of class CorruptDeflateStream are 1 to 12 (R302). -/
theorem code_of_corruptStream {d : ErrDetail} (h : d.errClass = 4) : 1 ≤ d.code ∧ d.code ≤ 12 := by
  cases d <;> revert h <;> decide

/-- A result that is in ERROR only by an error of the stream. -/
def State.failsCorrupt (s t : State) : Prop := t.state = .error → s.corruptStream t

section
variable {s t : State} (hs : s.state ≠ .error)
include hs

theorem failsCorrupt_of_state (h : t.state = s.state) : s.failsCorrupt t := fun e => absurd (h.symm.trans e) hs

omit hs in
theorem failsCorrupt_of_raise {d : ErrDetail} (h : d.errClass = 4) : s.failsCorrupt (raiseInflate d s) := fun _ => ⟨d, h, rfl⟩

theorem endOfBlock_failsCorrupt {u : State} (h : u.state = s.state) : s.failsCorrupt (endOfBlock u) := by
  unfold endOfBlock
  split
  · exact nofun
  · exact failsCorrupt_of_state hs h

theorem storedByteDone_failsCorrupt {u : State} (h : u.state = s.state) : s.failsCorrupt (storedByteDone u) := by
  unfold storedByteDone
  split
  · exact endOfBlock_failsCorrupt hs h
  · exact failsCorrupt_of_state hs h

theorem lengthsDone_failsCorrupt {u : State} (h : u.state = s.state) : s.failsCorrupt (lengthsDone u) := by
  rw [lengthsDone_only]; exact failsCorrupt_of_state hs h

omit hs in
/-- An output that may raise, and what follows it. -/
theorem orRaise_map_failsCorrupt {r : Except ErrDetail State} {f : State → State} (h : orRaise s (r.map f) = .next t)
    (full : ∀ d, r = .error d → d = .outOverflow) (ok : ∀ u, r = .ok u → s.failsCorrupt (f u)) : s.failsCorrupt t := by
  cases r with
  | ok u => cases h; exact ok u rfl
  | error d => cases h; cases full d rfl; exact failsCorrupt_of_raise rfl

theorem execStoredByte_failsCorrupt {b : Byte} (h : execStoredByte b s = .next t) : s.failsCorrupt t :=
  orRaise_map_failsCorrupt h (fun _ => emit_error) fun u e => storedByteDone_failsCorrupt hs (by rw [emit_only e])

theorem execLit_failsCorrupt {b : Byte} (h : execLit b s = .next t) : s.failsCorrupt t :=
  orRaise_map_failsCorrupt h (fun _ => emit_error) fun u e => failsCorrupt_of_state hs (by rw [emit_only e])

theorem distancePart_failsCorrupt {d e : Nat} (h : distancePart d e s = .next t) : s.failsCorrupt t := by
  unfold distancePart at h
  split at h
  · cases h; exact failsCorrupt_of_raise rfl
  · exact orRaise_map_failsCorrupt h (fun _ => copy_error) fun u e => failsCorrupt_of_state hs (by rw [copy_only e]; rfl)

theorem execStoredHeader_failsCorrupt {len nlen : BitVec 16} (h : execStoredHeader len nlen s = .next t) :
    s.failsCorrupt t := by
  unfold execStoredHeader at h
  repeat' split at h
  · cases h; exact failsCorrupt_of_raise rfl
  · cases h; exact endOfBlock_failsCorrupt hs rfl
  · cases h; exact failsCorrupt_of_state hs rfl

theorem execDynHeader_failsCorrupt {hlit hdist : BitVec 5} {hclen : BitVec 4}
    (h : execDynHeader hlit hdist hclen s = .next t) : s.failsCorrupt t := by
  simp only [execDynHeader] at h
  split at h
  · cases h; exact failsCorrupt_of_raise rfl
  · cases h; exact failsCorrupt_of_state hs rfl

theorem execBlkStored_failsCorrupt {f : BitVec 1} (h : execBlkStored f s = .next t) : s.failsCorrupt t := by
  unfold execBlkStored at h
  split at h
  · cases h; exact failsCorrupt_of_state hs rfl
  · cases h; exact failsCorrupt_of_raise rfl

theorem runLengths_failsCorrupt {v : BitVec 4} {r : Nat} (h : runLengths v r s = .next t) : s.failsCorrupt t := by
  unfold runLengths at h
  split at h
  · cases h; exact failsCorrupt_of_raise rfl
  · cases h; exact lengthsDone_failsCorrupt hs rfl

theorem execClRepeatPrev_failsCorrupt {e : BitVec 2} (h : execClRepeatPrev e s = .next t) : s.failsCorrupt t := by
  unfold execClRepeatPrev at h
  split at h
  · cases h; exact failsCorrupt_of_raise rfl
  · exact runLengths_failsCorrupt hs h

/-- Every instruction of INFLATE's stream raises only details of class CorruptDeflateStream, at the element's start. -/
theorem exec_failsCorrupt {i : Instr} (hi : isStreamFormat (formatOf i) = true) (h : exec i s = .next t) :
    s.failsCorrupt t := by
  cases i
  case storedHeader => exact execStoredHeader_failsCorrupt hs h
  case storedByte => exact execStoredByte_failsCorrupt hs h
  case dynHeader => exact execDynHeader_failsCorrupt hs h
  case blkStored => exact execBlkStored_failsCorrupt hs h
  case lit => exact execLit_failsCorrupt hs h
  case eob => cases h; exact endOfBlock_failsCorrupt hs rfl
  case clLen => cases h; exact lengthsDone_failsCorrupt hs rfl
  case clRepeatPrev => exact execClRepeatPrev_failsCorrupt hs h
  case clRepeatZero3 | clRepeatZero11 => exact runLengths_failsCorrupt hs h
  case blkReserved | llReserved286 | llReserved287 | distReserved30 | distReserved31 =>
    cases h; exact failsCorrupt_of_raise rfl
  case blockHeader | dynClLengths | blkFixed | blkDynamic => cases h; exact failsCorrupt_of_state hs rfl
  all_goals first
    | exact distancePart_failsCorrupt hs h
    | (cases h; exact failsCorrupt_of_state hs rfl)
    | cases hi

end

/-! ## The errors of an element -/

/-- An error raised inside the element of INFLATE that starts at bit `p` of the stream. -/
def State.failedAt (t : State) (p : Nat) : Prop := ∃ u : State, u.eltStart = p ∧ u.corruptStream t

theorem eltStart_of_fixedPart {s t : State} (h : t.fixedPart = s.fixedPart) : t.eltStart = s.eltStart :=
  congrArg (fun p => p.2.2.2.2.2.2) h

theorem runElement_failedAt {elem : Elem} {s t : State} (he : isStreamFormat elem = true) (hs : s.state ≠ .error)
    (h : runElement elem s = .next t) (ht : t.state = .error) : t.failedAt s.eltStart := by
  unfold runElement at h
  split at h
  · rename_i i u e
    have only := decode_cursorOnly e
    have hu : u.state ≠ .error := by unfold State.cursorOnly at only; rw [only]; exact hs
    exact ⟨u, eltStart_of_fixedPart (cursorOnly_fixedPart only),
      exec_failsCorrupt hu ((formatOf_decode he e).symm ▸ he) h ht⟩
  · cases h; exact ⟨s, rfl, .truncated, rfl, rfl⟩
  · cases h; exact ⟨s, rfl, .huffNoMatch, rfl, rfl⟩
  · cases h

/-- The second part of an element fails at the element's start too (R131, R162). -/
theorem continueElement_failedAt {s t : State} (hs : s.state ≠ .error) (h : continueElement s = .next t)
    (ht : t.state = .error) : t.failedAt s.eltStart := by
  cases pending : s.pending with
  | none => rw [continueElement_none pending] at h; cases h; exact absurd ht hs
  | blockType =>
    rw [continueElement_blockType pending] at h
    have format : isStreamFormat (formatOf (decodeBlockType s.bfinal s.btype)) = true := by
      rw [formatOf_decodeBlockType]; rfl
    exact ⟨s, rfl, exec_failsCorrupt hs format h ht⟩
  | distance len =>
    rw [continueElement_distance pending] at h
    exact runElement_failedAt rfl hs h ht

/-- A step of a running INFLATE fails at the bp it began at (R130, R305). -/
theorem inflateStep_failedAt {s t : State} (hs : s.state ≠ .error) (hp : s.pending = .none) (h : inflateStep s = .next t)
    (ht : t.state = .error) : t.failedAt s.bp := by
  cases he : elemOf s.st with
  | none => simp [inflateStep, hp, he] at h
  | some elem =>
    rw [inflateStep_element hp he] at h
    obtain ⟨u, first, second⟩ := andThen_eq_next.1 h
    by_cases hu : u.state = .error
    · have failed := runElement_failedAt (isStreamFormat_of_elemOf he) (s := markStart s) hs first hu
      obtain ⟨v, start, d, corrupt, rfl⟩ := failed
      rw [continueElement_raiseInflate] at second
      cases second
      exact ⟨v, start, d, corrupt, rfl⟩
    · have start : u.eltStart = s.bp := eltStart_of_fixedPart (runElement_fixedPart first)
      exact start ▸ continueElement_failedAt hu second ht

theorem bp_div_lt (s : State) : s.bp / 8 < 2 ^ 32 := by
  have := s.inPos.isLt
  unfold State.bp
  omega

/-- Settles O44: an error of a step of INFLATE is raised at the start that the step marked. -/
theorem inflateErrorAtElementStart : Obligations.InflateErrorAtElementStart := by
  intro s t ⟨busy, phase, op, pending⟩ h ht
  rw [engineStep_inflate phase op] at h
  obtain ⟨u, start, d, corrupt, rfl⟩ := inflateStep_failedAt (by rw [busy]; nofun) pending h ht
  obtain ⟨low, high⟩ := code_of_corruptStream corrupt
  have byte : (BitVec.ofNat 32 (s.bp / 8)).toNat = s.bp / 8 := (BitVec.toNat_ofNat _ _).trans (Nat.mod_eq_of_lt (bp_div_lt s))
  have bit : (BitVec.ofNat 3 (s.bp % 8)).toNat = s.bp % 8 := by
    rw [BitVec.toNat_ofNat]; exact Nat.mod_mod _ 8
  rw [← start] at byte bit ⊢
  exact ⟨byte, bit, corrupt, low, high, rfl⟩

end Sys2Proof.Machine
end

section
/-! SUPPORT. The length and distance codes (R162 to R168, R170 to R198, R200 to R229): the code that a table gives a symbol is read
back with its extra bits, and the instruction has the base and the extra value of the ROM tables. -/

namespace Sys2Proof.Machine

/-! ## Reading a code with its extra bits (R164, R166) -/

variable {c : Ctx} {code : List Bool} {e : Nat}

theorem decode_litLen_code {sym : Nat} (hc : encodeSym c.lit sym = some code) (he : e < 2 ^ lext sym) (pos : Nat)
    (rest : List Bool) :
    decode bitListSource .litLen c { pos := pos, bits := code ++ (fieldBits (lext sym) e ++ rest) } =
      .ok (litLenInstr sym e, { pos := pos + code.length + lext sym, bits := rest }) := by
  obtain ⟨hs, read⟩ := decodeSym_encodeSym (pos := pos) (rest := fieldBits (lext sym) e ++ rest) c.draw hc
  simp only [decode, decodeLitLen, read, BitVec.toNat_ofNat, Nat.mod_eq_of_lt hs, readExtra_fieldBits he]

theorem decode_distance_code {d : Nat} (hc : encodeSym c.dist d = some code) (he : e < 2 ^ dext d) (pos : Nat)
    (rest : List Bool) :
    decode bitListSource .distance c { pos := pos, bits := code ++ (fieldBits (dext d) e ++ rest) } =
      .ok (distInstr d e, { pos := pos + code.length + dext d, bits := rest }) := by
  obtain ⟨hd, read⟩ := decodeSym_encodeSym (pos := pos) (rest := fieldBits (dext d) e ++ rest) c.draw hc
  simp only [decode, decodeDistance, read, BitVec.toNat_ofNat, Nat.mod_eq_of_lt hd, readExtra_fieldBits he]

/-! ## The distance part of a match (R162, R164, R165) -/

theorem distancePart_tooFar {d : Nat} {s : State} (h : s.outLen.toNat < dbase d + e) :
    distancePart d e s = .next (raiseInflate .distTooFar s) := if_pos h

theorem distancePart_full {d len : Nat} {s : State} (hp : s.pending = .distance len) (far : dbase d + e ≤ s.outLen.toNat)
    (ok : s.outLen.toNat ≤ s.outCap.toNat) (full : s.outCap.toNat < s.outLen.toNat + len) :
    distancePart d e s = .next (raiseInflate .outOverflow s) := by
  have waits : s.matchLen = len := by rw [State.matchLen, hp]
  rw [distancePart, if_neg (Nat.not_lt.2 far), waits, copy_full ok full]
  rfl

theorem distanceRule_distInstr {d : Nat} (hd : d < 30) (he : e < 2 ^ dext d) : distanceRule (distInstr d e) (dbase d + e) := by
  intro s len hp
  rw [exec_distInstr hd he]
  exact ⟨distancePart_room hd hp, distancePart_tooFar, distancePart_full hp⟩

/-! ## One rule for every length symbol and one for every distance symbol -/

/-- In the fixed table a length symbol has the code of R97; LEXT and LBASE give the rest. -/
theorem lengthRule_litLenInstr (sym : Nat) (h : 257 ≤ sym ∧ sym ≤ 285 := by decide) :
    lengthRule (fixedLitCode sym) (lext sym) (lbase sym) (litLenInstr sym) := by
  obtain ⟨lo, hi⟩ := h
  intro e he
  refine ⟨fun c pos rest fixed => ?_, exec_litLenInstr_length lo hi he⟩
  have coded : encodeSym c.lit sym = some (fixedLitCode sym) := by rw [fixed, encodeSym_fixedLit (by omega)]
  exact decode_litLen_code coded he pos rest

/-- In the fixed table a distance symbol is its own code of 5 bits (R97); DEXT and DBASE give the rest. -/
theorem distanceCodeRule_distInstr (d : Nat) (h : d < 30 := by decide) :
    distanceCodeRule (codeBits 5 d) (dext d) (dbase d) (distInstr d) := by
  intro e he
  refine ⟨fun c unset pos rest fixed => ?_, distanceRule_distInstr h he⟩
  have coded : encodeSym c.dist d = some (codeBits 5 d) := by
    rw [fixed]
    exact encodeSym_flat (listsFlat_fixedDistLens unset) (by decide) h
  exact decode_distance_code coded he pos rest

/-- Settles O21: the rule of a distance symbol at 0 to 9. -/
theorem distanceCodes0To9 : Obligations.DistanceCodes0To9 :=
  ⟨distanceCodeRule_distInstr 0, distanceCodeRule_distInstr 1, distanceCodeRule_distInstr 2, distanceCodeRule_distInstr 3,
    distanceCodeRule_distInstr 4, distanceCodeRule_distInstr 5, distanceCodeRule_distInstr 6, distanceCodeRule_distInstr 7,
    distanceCodeRule_distInstr 8, distanceCodeRule_distInstr 9⟩

/-- Settles O22: the rule of a distance symbol at 10 to 19. -/
theorem distanceCodes10To19 : Obligations.DistanceCodes10To19 :=
  ⟨distanceCodeRule_distInstr 10, distanceCodeRule_distInstr 11, distanceCodeRule_distInstr 12, distanceCodeRule_distInstr 13,
    distanceCodeRule_distInstr 14, distanceCodeRule_distInstr 15, distanceCodeRule_distInstr 16, distanceCodeRule_distInstr 17,
    distanceCodeRule_distInstr 18, distanceCodeRule_distInstr 19⟩

/-- Settles O23: the rule of a distance symbol at 20 to 29. -/
theorem distanceCodes20To29 : Obligations.DistanceCodes20To29 :=
  ⟨distanceCodeRule_distInstr 20, distanceCodeRule_distInstr 21, distanceCodeRule_distInstr 22, distanceCodeRule_distInstr 23,
    distanceCodeRule_distInstr 24, distanceCodeRule_distInstr 25, distanceCodeRule_distInstr 26, distanceCodeRule_distInstr 27,
    distanceCodeRule_distInstr 28, distanceCodeRule_distInstr 29⟩

/-- Settles O18: the rule of a length symbol where LEXT is 0. -/
theorem lengthCodesWithoutExtraBits : Obligations.LengthCodesWithoutExtraBits :=
  ⟨lengthRule_litLenInstr 257, lengthRule_litLenInstr 258, lengthRule_litLenInstr 259, lengthRule_litLenInstr 260,
    lengthRule_litLenInstr 261, lengthRule_litLenInstr 262, lengthRule_litLenInstr 263, lengthRule_litLenInstr 264,
    lengthRule_litLenInstr 285⟩

/-- Settles O19: the rule of a length symbol where LEXT is 1 to 3. -/
theorem lengthCodes265To276 : Obligations.LengthCodes265To276 :=
  ⟨lengthRule_litLenInstr 265, lengthRule_litLenInstr 266, lengthRule_litLenInstr 267, lengthRule_litLenInstr 268,
    lengthRule_litLenInstr 269, lengthRule_litLenInstr 270, lengthRule_litLenInstr 271, lengthRule_litLenInstr 272,
    lengthRule_litLenInstr 273, lengthRule_litLenInstr 274, lengthRule_litLenInstr 275, lengthRule_litLenInstr 276⟩

/-- Settles O20: the rule of a length symbol where LEXT is 4 or 5. -/
theorem lengthCodes277To284 : Obligations.LengthCodes277To284 :=
  ⟨lengthRule_litLenInstr 277, lengthRule_litLenInstr 278, lengthRule_litLenInstr 279, lengthRule_litLenInstr 280,
    lengthRule_litLenInstr 281, lengthRule_litLenInstr 282, lengthRule_litLenInstr 283, lengthRule_litLenInstr 284⟩

/-! ## The ROM tables (R167, R168) -/

/-- The length bases follow each other without a gap up to 284, whose last extra value gives the length 258 of 285 (R167). -/
theorem lbase_succ : ∀ sym, 257 ≤ sym → sym ≤ 283 → lbase (sym + 1) = lbase sym + 2 ^ lext sym := by decide

/-- The distance bases follow each other without a gap (R168). -/
theorem dbase_succ : ∀ d, d ≤ 28 → dbase (d + 1) = dbase d + 2 ^ dext d := by decide

/-- Settles O25: the tables entry by entry. -/
theorem lengthAndDistanceTablesHaveNoGaps : Obligations.LengthAndDistanceTablesHaveNoGaps :=
  ⟨⟨rfl, rfl, rfl, rfl, rfl, rfl, rfl, by decide, by decide, lbase_succ⟩, rfl, rfl, rfl, rfl, by decide, dbase_succ, rfl⟩

end Sys2Proof.Machine
end

section
/-! SUPPORT. PaethPredictor, and the start steps of DEFILTER and FILTER: each outcome by the checks (R61, R62, R245, R246, R274,
R275). -/

namespace Sys2Proof.Machine

/-! ## PaethPredictor (R245) -/

/-- Settles O30: by the two comparisons of the predictor. -/
theorem paethPicksNearest : Obligations.PaethPicksNearest := by
  intro a b c far
  unfold predPaeth
  refine ⟨fun ab ac => if_pos ⟨ab, ac⟩, fun ba bc => ?_, fun ca cb => ?_⟩
  · exact (if_neg fun ⟨ab, _⟩ => Nat.not_le.2 ba ab).trans (if_pos bc)
  · exact (if_neg fun ⟨_, ac⟩ => Nat.not_le.2 ca ac).trans (if_neg (Nat.not_le.2 cb))

/-! ## The start steps (R246, R274, R275) -/

section
variable {s : State} {src dst : Nat}

theorem geometryError_srcShort (short : s.inLen.toNat < src) : geometryError src dst s = some .srcShort := if_pos short

theorem geometryError_dstShort (fits : src ≤ s.inLen.toNat) (short : s.outCap.toNat < dst) :
    geometryError src dst s = some .dstShort := (if_neg (Nat.not_lt.2 fits)).trans (if_pos short)

theorem geometryError_fits (fits : src ≤ s.inLen.toNat) (room : dst ≤ s.outCap.toNat) : geometryError src dst s = none :=
  (if_neg (Nat.not_lt.2 fits)).trans (if_neg (Nat.not_lt.2 room))

theorem execDefilter_badWindows (h : s.windowsOk = false) : execDefilter s = .next (raise .defilter .argInvalid noPos s) :=
  if_neg (by simp [h])

theorem execDefilter_error {d : ErrDetail} (h : s.windowsOk = true)
    (e : geometryError ((s.stride + 1) * s.height.toNat) (s.stride * s.height.toNat) s = some d) :
    execDefilter s = .next (raise .defilter d noPos s) := (if_pos h).trans (by rw [e])

theorem execDefilter_start (h : s.windowsOk = true) (fits : (s.stride + 1) * s.height.toNat ≤ s.inLen.toNat)
    (room : s.stride * s.height.toNat ≤ s.outCap.toNat) : execDefilter s = .next (rowsStart s) :=
  (if_pos h).trans (by rw [geometryError_fits fits room])

theorem execFilter_badWindows (f : BitVec 3) (h : s.windowsOk = false) :
    execFilter f s = .next (raise .filter .argInvalid noPos s) := if_neg (by simp [h])

theorem execFilter_error {f : BitVec 3} {d : ErrDetail} (h : s.windowsOk = true) (hf : f.toNat ≤ 4)
    (e : geometryError (s.stride * s.height.toNat) ((s.stride + 1) * s.height.toNat) s = some d) :
    execFilter f s = .next (raise .filter d noPos s) :=
  (if_pos h).trans ((if_neg (Nat.not_lt.2 hf)).trans (by rw [e]))

theorem execFilter_start {f : BitVec 3} (h : s.windowsOk = true) (hf : f.toNat ≤ 4)
    (fits : s.stride * s.height.toNat ≤ s.inLen.toNat) (room : (s.stride + 1) * s.height.toNat ≤ s.outCap.toNat) :
    execFilter f s = .next (rowsStart { s with sfbFt := f }) :=
  (if_pos h).trans ((if_neg (Nat.not_lt.2 hf)).trans (by rw [geometryError_fits fits room]))

end

/-- Settles O31: the window checks, then what the geometry checks answer. -/
theorem rowCommandsStart : Obligations.RowCommandsStart := by
  intro s
  refine ⟨fun bad => ⟨execDefilter_badWindows bad, fun f => execFilter_badWindows f bad⟩, fun ok => ?_⟩
  refine ⟨fun short => ?_, fun fits short => ?_, fun fits room => ?_, fun f hf => ⟨fun short => ?_, fun fits short => ?_,
    fun fits room => ?_⟩⟩
  · exact execDefilter_error ok (geometryError_srcShort short)
  · exact execDefilter_error ok (geometryError_dstShort fits short)
  · exact execDefilter_start ok fits room
  · exact execFilter_error ok hf (geometryError_srcShort short)
  · exact execFilter_error ok hf (geometryError_dstShort fits short)
  · exact execFilter_start ok hf fits room

end Sys2Proof.Machine
end

section
/-! SUPPORT. A row of DEFILTER and of FILTER, byte by byte, with any predictor (R240 to R244, R248 to R253, R256, R257). -/

namespace Sys2Proof.Machine

/-! ## The neighbours (R256) -/

theorem neighbours_eq_rawNeighbours (m : List Host.Cell) (base : Addr) (stride r x : Nat) :
    neighbours m base stride r x = rawNeighbours (fun k => Memory.read m (windowAddr base k)) stride r x := by
  simp only [neighbours, rawNeighbours, Nat.sub_one_mul]

/-- The neighbours of byte `x` of row `r` stand before it in the raw image. -/
theorem rawNeighbours_congr {f g : Nat → Byte} {stride r x : Nat} (hx : x < stride)
    (h : ∀ k, k < r * stride + x → f k = g k) : rawNeighbours f stride r x = rawNeighbours g stride r x := by
  have left : 4 ≤ x → f (r * stride + x - 4) = g (r * stride + x - 4) := fun _ => h _ (by omega)
  have above : ∀ y, y ≤ x → 1 ≤ r → f ((r - 1) * stride + y) = g ((r - 1) * stride + y) := fun y hy hr =>
    h _ (by
      have row : (r - 1) * stride + stride = r * stride := by rw [← Nat.succ_mul, Nat.succ_eq_add_one, Nat.sub_add_cancel hr]
      omega)
  have corner : 4 ≤ x ∧ 1 ≤ r → f ((r - 1) * stride + x - 4) = g ((r - 1) * stride + x - 4) := fun ⟨h4, hr⟩ => by
    rw [Nat.add_sub_assoc h4]; exact above (x - 4) (Nat.sub_le x 4) hr
  unfold rawNeighbours
  rw [ite_congr rfl left fun _ => rfl, ite_congr rfl (above x (Nat.le_refl x)) fun _ => rfl,
    ite_congr rfl corner fun _ => rfl]

/-! ## The byte loops (R240, R248) -/

section
variable {pred : Byte → Byte → Byte → Byte} {i o : Addr} {stride r n x y : Nat} {m : List Host.Cell}

/-- Every byte the loop of R240 writes is the filtered byte plus the prediction from the raw bytes it leaves in OUT. -/
theorem defilterBytes_written (fits : r * stride + stride ≤ 2 ^ 32)
    (apart : ∀ j k, j < stride → k < stride →
      windowAddr i (r * (stride + 1) + 1 + j) ≠ windowAddr o (r * stride + k))
    (end_le : x + n ≤ stride) (from_le : x ≤ y) (lt_end : y < x + n) :
    Memory.read (defilterBytes pred i o stride r n x m) (windowAddr o (r * stride + y)) =
      Memory.read m (windowAddr i (r * (stride + 1) + 1 + y)) +
        predOf pred (neighbours (defilterBytes pred i o stride r n x m) o stride r y) := by
  induction n generalizing x m with
  | zero => omega
  | succ n ih =>
    rcases Nat.eq_or_lt_of_le from_le with rfl | later
    · have kept : ∀ k, k < r * stride + x →
          Memory.read (defilterBytes pred i o stride r (n + 1) x m) (windowAddr o k) = Memory.read m (windowAddr o k) :=
        fun k hk => defilterBytes_read fun j hj e => by have := windowAddr_inj (by omega) (by omega) e; omega
      rw [neighbours_eq_rawNeighbours, rawNeighbours_congr (by omega) kept, ← neighbours_eq_rawNeighbours, defilterBytes,
        defilterBytes_read fun j hj e => by have := windowAddr_inj (by omega) (by omega) e; omega]
      exact Memory.read_write_same _ _ _
    · rw [defilterBytes, ih (by omega) later (by omega), Memory.read_write_other _ _ (apart y x (by omega) (by omega))]

/-- Every byte the loop of R248 writes is the raw byte less the prediction from the raw bytes in IN. -/
theorem filterBytes_written (fits : r * (stride + 1) + 1 + stride ≤ 2 ^ 32)
    (apart : ∀ j k, j < r * stride + stride → k < stride → windowAddr i j ≠ windowAddr o (r * (stride + 1) + 1 + k))
    (end_le : x + n ≤ stride) (from_le : x ≤ y) (lt_end : y < x + n) :
    Memory.read (filterBytes pred i o stride r n x m) (windowAddr o (r * (stride + 1) + 1 + y)) =
      Memory.read m (windowAddr i (r * stride + y)) - predOf pred (neighbours m i stride r y) := by
  induction n generalizing x m with
  | zero => omega
  | succ n ih =>
    rcases Nat.eq_or_lt_of_le from_le with rfl | later
    · rw [filterBytes, filterBytes_read fun j hj e => by have := windowAddr_inj (by omega) (by omega) e; omega]
      exact Memory.read_write_same _ _ _
    · have kept : ∀ k v, k < r * stride + stride →
          Memory.read (Memory.write m (windowAddr o (r * (stride + 1) + 1 + x)) v) (windowAddr i k) =
            Memory.read m (windowAddr i k) := fun k v hk => Memory.read_write_other _ _ (apart k x hk (by omega))
      rw [filterBytes, ih (by omega) later (by omega), kept _ _ (by omega),
        neighbours_congr (by omega) fun k hk => kept k _ hk]

end

/-! ## The rows -/

theorem rowDone_counted (size : Nat) (m : List Host.Cell) (s : State) : rowCounted size s (rowDone size m s) := by
  unfold rowCounted rowDone
  split <;> rfl

theorem outByte_rowDone (size : Nat) (m : List Host.Cell) (s : State) :
    (rowDone size m s).outByte = fun k => Memory.read m (windowAddr s.outBase k) := by
  unfold rowDone
  split <;> rfl

/-- The row of DEFILTER with any predictor (R240). -/
theorem defilterRule_defilterRow {i : Instr} {pred : Byte → Byte → Byte → Byte} (h : ∀ s, exec i s = defilterRow pred s) :
    defilterRule i pred := by
  intro s ⟨windows, src, dst, row⟩
  have filtered := (row_end_le row).trans src
  have raw := (row_end_le row).trans dst
  have cap := s.outCap.isLt
  refine ⟨_, h s, rowDone_counted _ _ s, fun x hx => ?_, fun a outside => ?_⟩
  · rw [outByte_rowDone, ← neighbours_eq_rawNeighbours]
    exact defilterBytes_written (by omega) (fun j k hj hk => windowAddr_in_ne_out windows (by omega) (by omega))
      (Nat.zero_add _).le (Nat.zero_le x) (by omega)
  · rw [State.memRead, rowDone_mem]
    exact defilterBytes_read fun k hk => by rw [Nat.zero_add]; exact outside k hk

/-- The row of FILTER with any type and predictor (R248). -/
theorem filterRule_filterRow {i : Instr} {type : Byte} {pred : Byte → Byte → Byte → Byte}
    (h : ∀ s, exec i s = filterRow type pred s) : filterRule i type pred := by
  intro s ⟨windows, src, dst, row⟩
  have raw := (row_end_le row).trans src
  have filtered := (row_end_le row).trans dst
  have cap := s.outCap.isLt
  have apart : ∀ j k, j < s.sfbRow.toNat * s.stride + s.stride → k < s.stride + 1 →
      windowAddr s.inBase j ≠ windowAddr s.outBase (s.sfbRow.toNat * (s.stride + 1) + k) :=
    fun j k hj hk => windowAddr_in_ne_out windows (by omega) (by omega)
  have typed : ∀ v k, k < s.sfbRow.toNat * s.stride + s.stride →
      Memory.read (Memory.write s.mem (windowAddr s.outBase (s.sfbRow.toNat * (s.stride + 1))) v) (windowAddr s.inBase k) =
        s.inByte k := fun v k hk => Memory.read_write_other _ _ (apart k 0 hk (by omega))
  refine ⟨_, h s, rowDone_counted _ _ s, ?_, fun x hx => ?_, fun a outside => ?_⟩
  · simp only [outByte_rowDone]
    rw [filterBytes_read fun k hk e => by have := windowAddr_inj (by omega) (by omega) e; omega]
    exact Memory.read_write_same _ _ _
  · simp only [outByte_rowDone]
    rw [filterBytes_written (by omega) (fun j k hj hk => by rw [Nat.add_assoc]; exact apart j _ hj (by omega))
      (by omega) (by omega) (by omega), typed _ _ (by omega), neighbours_eq_rawNeighbours,
      rawNeighbours_congr hx fun k hk => typed _ k (by omega)]
  · rw [State.memRead, rowDone_mem, filterBytes_read fun k hk => by
      rw [Nat.zero_add, Nat.add_assoc]; exact outside (1 + k) (by omega)]
    exact Memory.read_write_other _ _ (outside 0 (by omega))

/-- Settles O28: each type's row is the row of its predictor. -/
theorem defilterRowReconstructs : Obligations.DefilterRowReconstructs :=
  ⟨defilterRule_defilterRow fun _ => rfl, defilterRule_defilterRow fun _ => rfl, defilterRule_defilterRow fun _ => rfl,
    defilterRule_defilterRow fun _ => rfl, defilterRule_defilterRow fun _ => rfl⟩

/-- Settles O29: each type's row is the row of its predictor. -/
theorem filterRowPredicts : Obligations.FilterRowPredicts :=
  ⟨filterRule_filterRow fun _ => rfl, filterRule_filterRow fun _ => rfl, filterRule_filterRow fun _ => rfl,
    filterRule_filterRow fun _ => rfl, filterRule_filterRow fun _ => rfl⟩

end Sys2Proof.Machine
end

section
/-! SUPPORT. The filter round trip (R255): FILTER row by row, then DEFILTER row by row, as runs of ENGINE steps (R270). -/

namespace Sys2Proof.Machine

/-! ## Runs of ENGINE steps -/

theorem run_succ_of_step {M : Host.Core} {s t : M.State} (h : M.step s = .next t) (n : Nat) : M.run (n + 1) s = M.run n t := by
  rw [Host.Core.run, h]

/-- Where every step leads from `P r` to `P (r + 1)` below `h`, `h` steps lead from `P 0` to `P h`. -/
theorem run_of_steps {P : Nat → State → Prop} {h : Nat} (next : ∀ r t, r < h → P r t → ∃ u, step t = .next u ∧ P (r + 1) u)
    {s : State} (first : P 0 s) : ∃ t, Host.Core.run core h s = .next t ∧ P h t := by
  have rest : ∀ n r t, r + n = h → P r t → ∃ u, Host.Core.run core n t = .next u ∧ P h u := by
    intro n
    induction n with
    | zero => rintro r t rfl last; exact ⟨t, rfl, last⟩
    | succ n ih =>
      intro r t le here
      obtain ⟨u, stepped, there⟩ := next r t (by omega) here
      obtain ⟨v, ran, last⟩ := ih (r + 1) u (by omega) there
      exact ⟨v, (run_succ_of_step (M := core) stepped n).trans ran, last⟩
  exact rest h 0 s (Nat.zero_add h) first

/-! ## Bytes that a row leaves (R65) -/

section
variable {s t : State} {lo n k : Nat}

theorem State.outOnly.inByte (h : s.outOnly t lo n) (windows : s.windowsOk = true) (inside : lo + n ≤ s.outCap.toNat)
    (base : t.inBase = s.inBase) (hk : k < s.inLen.toNat) : t.inByte k = s.inByte k := by
  unfold State.inByte
  rw [base]
  exact h _ fun j hj => windowAddr_in_ne_out windows hk (by omega)

theorem State.outOnly.outByte (h : s.outOnly t lo n) (inside : lo + n ≤ s.outCap.toNat) (base : t.outBase = s.outBase)
    (hk : k < lo) : t.outByte k = s.outByte k := by
  have cap := s.outCap.isLt
  unfold State.outByte
  rw [base]
  exact h _ fun j hj e => by have := windowAddr_inj (by omega) (by omega) e; omega

end

/-! ## A row's registers (R240, R248) -/

section
variable {s t : State} {size : Nat}

theorem rowCounted.frame (h : rowCounted size s t) :
    t = { s with state := t.state, mem := t.mem, sfbRow := t.sfbRow, outLen := t.outLen } := by
  unfold rowCounted at h
  split at h <;> rw [h]

theorem rowCounted.row (h : rowCounted size s t) : t.sfbRow = s.sfbRow + 1 := by
  unfold rowCounted at h
  split at h <;> rw [h]

theorem rowCounted.ends (h : rowCounted size s t) (busy : s.state = .busy) :
    if t.sfbRow = s.height then t.state = .done ∧ t.outLen = BitVec.ofNat 32 size else t.state = .busy := by
  rw [h.row]
  unfold rowCounted at h
  split at h
  · rename_i last
    rw [if_pos last, h]
    exact ⟨rfl, rfl⟩
  · rename_i more
    rw [if_neg more, h]
    exact busy

end

/-! ## The rows of a running command -/

/-- The windows of `s` hold an image of `inSize` bytes a row in IN and `outSize` bytes a row in OUT (R61, R62, R246). -/
structure State.HoldsImage (s : State) (inSize outSize : Nat) : Prop where
  windows : s.windowsOk = true
  src : inSize * s.height.toNat ≤ s.inLen.toNat
  dst : outSize * s.height.toNat ≤ s.outCap.toNat

/-- `t` is the running row command `s` after `r` of its rows: IN is as it was, and after the last row the command is done. -/
structure State.AfterRows (s : State) (outSize r : Nat) (t : State) : Prop where
  frame : t = { s with state := t.state, mem := t.mem, sfbRow := t.sfbRow, outLen := t.outLen, tick := t.tick }
  row : t.sfbRow.toNat = r
  ends : if t.sfbRow = s.height then t.state = .done ∧ t.outLen = BitVec.ofNat 32 (outSize * s.height.toNat)
    else t.state = .busy
  inKept : ∀ k, k < s.inLen.toNat → t.inByte k = s.inByte k

section
variable {s t u : State} {inSize outSize r : Nat}

/-- The start step leaves the command before its first row, or done when there is none (R274, R275). -/
theorem afterRows_rowsStart (outSize : Nat) (busy : s.state = .busy) : s.AfterRows outSize 0 (tickOn (rowsStart s)) := by
  unfold rowsStart
  split
  · rename_i none
    exact ⟨rfl, rfl, by simp [none], fun _ _ => rfl⟩
  · rename_i some
    exact ⟨rfl, rfl, (if_neg (Ne.symm some)).mpr busy, fun _ _ => rfl⟩

theorem State.AfterRows.stride (h : s.AfterRows outSize r t) : t.stride = s.stride := by rw [h.frame]; rfl

theorem State.AfterRows.height (h : s.AfterRows outSize r t) : t.height = s.height := by rw [h.frame]

theorem State.AfterRows.moves (h : s.AfterRows outSize r t) : t.moves = s.moves := by rw [h.frame]

theorem State.AfterRows.rowReady (h : s.AfterRows outSize r t) (image : s.HoldsImage inSize outSize) (hr : r < s.height.toNat) :
    t.rowReady inSize outSize := by
  have row : t.sfbRow.toNat < s.height.toNat := h.row ▸ hr
  rw [h.frame]
  exact ⟨image.windows, image.src, image.dst, row⟩

theorem State.AfterRows.busy (h : s.AfterRows outSize r t) (hr : r < s.height.toNat) : t.state = .busy := by
  have more : t.sfbRow ≠ s.height := fun e => by have := h.row; rw [e] at this; omega
  simpa [more] using h.ends

/-- After its last row the command is done, and OUT_LEN is the size of the image it wrote. -/
theorem State.AfterRows.finished (h : s.AfterRows outSize s.height.toNat t)
    (room : outSize * s.height.toNat ≤ s.outCap.toNat) :
    t.state = .done ∧ t.outLen.toNat = outSize * s.height.toNat := by
  have last : t.sfbRow = s.height := BitVec.eq_of_toNat_eq h.row
  obtain ⟨done, outLen⟩ : t.state = .done ∧ t.outLen = BitVec.ofNat 32 (outSize * s.height.toNat) := by
    simpa [last] using h.ends
  have cap := s.outCap.isLt
  exact ⟨done, by rw [outLen, BitVec.toNat_ofNat, Nat.mod_eq_of_lt (by omega)]⟩

/-- One more row: it counts on, and it writes only its own bytes of OUT. -/
theorem State.AfterRows.next (h : s.AfterRows outSize r t) (image : s.HoldsImage inSize outSize) (hr : r < s.height.toNat)
    (counted : rowCounted (outSize * s.height.toNat) t u) (only : t.outOnly u (r * outSize) outSize) :
    s.AfterRows outSize (r + 1) (tickOn u) := by
  have inLen : t.inLen = s.inLen := by rw [h.frame]
  have windows : t.windowsOk = true := (h.rowReady image hr).1
  have inside : r * outSize + outSize ≤ t.outCap.toNat := by rw [h.frame]; exact (row_end_le hr).trans image.dst
  have hlt := s.height.isLt
  have base : u.inBase = t.inBase := by rw [counted.frame]
  refine ⟨?_, ?_, ?_, fun k hk => ?_⟩
  · rw [counted.frame, h.frame]; rfl
  · show u.sfbRow.toNat = r + 1
    rw [counted.row, BitVec.toNat_add, h.row, show (1 : Word).toNat = 1 from rfl, Nat.mod_eq_of_lt (by omega)]
  · have ends := counted.ends (h.busy hr)
    rwa [h.height] at ends
  · exact (only.inByte windows inside base (inLen ▸ hk)).trans (h.inKept k hk)

/-- Where a row of a running command leads, its step leads. -/
theorem State.AfterRows.step_eq (h : s.AfterRows outSize r t) (hr : r < s.height.toNat) (moves : s.moves = [])
    (e : engineStep t = .next u) : step t = .next (tickOn u) := by
  rw [step_busy (h.busy hr) (h.moves.trans moves), e, andThen_next]

end

/-! ## FILTER over the rows of an image -/

/-- `out` holds the first `rows` rows of the raw image `raw` as FILTER writes them with one type (R248): the type byte, then
every raw byte less its prediction. -/
def HoldsFiltered (type : Byte) (pred : Byte → Byte → Byte → Byte) (raw : Nat → Byte) (stride rows : Nat) (out : Nat → Byte) :
    Prop :=
  ∀ q, q < rows → out (q * (stride + 1)) = type ∧
    ∀ x, x < stride → out (q * (stride + 1) + 1 + x) = raw (q * stride + x) - predOf pred (rawNeighbours raw stride q x)

section
variable {type : Byte} {pred : Byte → Byte → Byte → Byte} {raw out out' : Nat → Byte} {stride r : Nat}

theorem HoldsFiltered.succ (h : HoldsFiltered type pred raw stride r out)
    (kept : ∀ k, k < r * (stride + 1) → out' k = out k) (typed : out' (r * (stride + 1)) = type)
    (bytes : ∀ x, x < stride →
      out' (r * (stride + 1) + 1 + x) = raw (r * stride + x) - predOf pred (rawNeighbours raw stride r x)) :
    HoldsFiltered type pred raw stride (r + 1) out' := by
  intro q hq
  rcases Nat.lt_succ_iff_lt_or_eq.1 hq with earlier | rfl
  · obtain ⟨typed, bytes⟩ := h q earlier
    have ends := row_end_le (n := stride + 1) earlier
    rw [Nat.mul_comm (stride + 1)] at ends
    exact ⟨(kept _ (by omega)).trans typed, fun x hx => (kept _ (by omega)).trans (bytes x hx)⟩
  · exact ⟨typed, bytes⟩

/-- Adding the prediction back gives the raw row, byte after byte (R255): the prediction sees only raw bytes before its own. -/
theorem raw_of_defiltered (earlier : ∀ k, k < r * stride → out k = raw k)
    (bytes : ∀ x, x < stride →
      out (r * stride + x) =
        raw (r * stride + x) - predOf pred (rawNeighbours raw stride r x) + predOf pred (rawNeighbours out stride r x)) :
    ∀ k, k < (r + 1) * stride → out k = raw k := by
  have upto : ∀ x, x ≤ stride → ∀ k, k < r * stride + x → out k = raw k := by
    intro x
    induction x with
    | zero => exact fun _ => earlier
    | succ x ih =>
      intro hx k hk
      have before := ih (by omega)
      rcases Nat.lt_or_eq_of_le (show k ≤ r * stride + x by omega) with lt | rfl
      · exact before k lt
      · rw [bytes x hx, rawNeighbours_congr hx before, BitVec.sub_add_cancel]
  rw [Nat.succ_mul]
  exact upto stride (Nat.le_refl stride)

end

section
variable {s t : State} {type : Byte} {pred : Byte → Byte → Byte → Byte} {raw : Nat → Byte} {r : Nat}

/-- A row of a running FILTER. -/
theorem filter_next (phase : s.phase = .run) (op : cmdOp s.cmdl = 3) (moves : s.moves = [])
    (image : s.HoldsImage s.stride (s.stride + 1)) (rule : filterRule (decodeFilterRow s.sfbFt) type pred)
    (hr : r < s.height.toNat) (h : s.AfterRows (s.stride + 1) r t)
    (filtered : HoldsFiltered type pred s.inByte s.stride r t.outByte) :
    ∃ u, step t = .next u ∧ s.AfterRows (s.stride + 1) (r + 1) u ∧
      HoldsFiltered type pred s.inByte s.stride (r + 1) u.outByte := by
  obtain ⟨u, ran, counted, typed, bytes, only⟩ := rule t (by rw [h.stride]; exact h.rowReady image hr)
  rw [h.stride, h.row] at typed bytes only
  rw [h.stride, h.height] at counted
  have inside := (row_end_le hr).trans image.src
  have outside : r * (s.stride + 1) + (s.stride + 1) ≤ t.outCap.toNat := by
    rw [h.frame]; exact (row_end_le hr).trans image.dst
  have raw : ∀ k, k < r * s.stride + s.stride → t.inByte k = s.inByte k := fun k hk => h.inKept k (by omega)
  have stepped : engineStep t = .next u := by
    rw [engineStep_filter (by rw [h.frame]; exact phase) (by rw [h.frame]; exact op), ← ran, h.frame]
  refine ⟨tickOn u, h.step_eq hr moves stepped, h.next image hr counted only, filtered.succ (fun k hk => ?_) typed
    fun x hx => ?_⟩
  · exact only.outByte outside (by rw [counted.frame]) hk
  · rw [← raw _ (by omega), ← rawNeighbours_congr hx fun k hk => raw k (by omega)]
    exact bytes x hx

/-- A row of a running DEFILTER over a filtered image. -/
theorem defilter_next (phase : s.phase = .run) (op : cmdOp s.cmdl = 2) (moves : s.moves = [])
    (image : s.HoldsImage (s.stride + 1) s.stride) (rule : defilterRule (decodeFilterType type) pred)
    (filtered : HoldsFiltered type pred raw s.stride s.height.toNat s.inByte) (hr : r < s.height.toNat)
    (h : s.AfterRows s.stride r t) (earlier : ∀ k, k < r * s.stride → t.outByte k = raw k) :
    ∃ u, step t = .next u ∧ s.AfterRows s.stride (r + 1) u ∧ ∀ k, k < (r + 1) * s.stride → u.outByte k = raw k := by
  obtain ⟨u, ran, counted, bytes, only⟩ := rule t (by rw [h.stride]; exact h.rowReady image hr)
  rw [h.stride, h.row] at bytes only
  rw [h.stride, h.height] at counted
  have inside := (row_end_le hr).trans image.src
  have outside : r * s.stride + s.stride ≤ t.outCap.toNat := by rw [h.frame]; exact (row_end_le hr).trans image.dst
  obtain ⟨typed, row⟩ := filtered r hr
  have filterByte : t.filterByte = type := by
    have at_row : t.filterByte = t.inByte (r * (s.stride + 1)) := by rw [State.filterByte, h.stride, h.row]; rfl
    rw [at_row, h.inKept _ (by omega), typed]
  have stepped : engineStep t = .next u := by
    rw [engineStep_defilter (by rw [h.frame]; exact phase) (by rw [h.frame]; exact op), filterByte, ran]
  refine ⟨tickOn u, h.step_eq hr moves stepped, h.next image hr counted only, raw_of_defiltered (pred := pred) (fun k hk => ?_)
    fun x hx => ?_⟩
  · exact (only.outByte outside (by rw [counted.frame]) hk).trans (earlier k hk)
  · rw [← row x hx, ← h.inKept _ (by omega)]
    exact bytes x hx

/-! ## The whole commands -/

theorem decodeCommand_defilter {w : Word} (op : cmdOp w = 2) : decodeCommand w = .defilter := by
  rw [decodeCommand, op]; rfl

theorem decodeCommand_filter {w : Word} (op : cmdOp w = 3) (hf : (cmdFtype w).toNat ≤ 4) :
    decodeCommand w = .filter (cmdFtype w) := by
  rw [decodeCommand, op]; exact decodeFilterStart_of_le hf

/-- An accepted FILTER between its start step and its rows, but for SFB.ROW (R275). -/
def State.filterStarted (s : State) : State := { s with phase := .run, sfbFt := cmdFtype s.cmdl }

/-- An accepted DEFILTER between its start step and its rows, but for SFB.ROW (R274). -/
def State.defilterStarted (s : State) : State := { s with phase := .run }

/-- An accepted FILTER is done after HEIGHT + 1 steps and leaves the filtered image in OUT (R248, R275). -/
theorem filter_run (busy : s.state = .busy) (start : s.phase = .start) (moves : s.moves = []) (op : cmdOp s.cmdl = 3)
    (hf : (cmdFtype s.cmdl).toNat ≤ 4) (image : s.HoldsImage s.stride (s.stride + 1))
    (rule : filterRule (decodeFilterRow (cmdFtype s.cmdl)) type pred) :
    ∃ t, Host.Core.run core (s.height.toNat + 1) s = .next t ∧
      s.filterStarted.AfterRows (s.stride + 1) s.height.toNat t ∧
      HoldsFiltered type pred s.inByte s.stride s.height.toNat t.outByte := by
  have started : step s = .next (tickOn (rowsStart s.filterStarted)) := by
    have first : exec (.filter (cmdFtype s.cmdl)) { s with phase := .run } = .next (rowsStart s.filterStarted) :=
      execFilter_start (s := { s with phase := .run }) image.windows hf image.src image.dst
    rw [step_busy busy moves, engineStep_start start, decodeCommand_filter op hf, first, andThen_next]
  have image : s.filterStarted.HoldsImage s.stride (s.stride + 1) := ⟨image.windows, image.src, image.dst⟩
  rw [run_succ_of_step (M := core) started]
  exact run_of_steps (P := fun r t => s.filterStarted.AfterRows (s.stride + 1) r t ∧
      HoldsFiltered type pred s.inByte s.stride r t.outByte)
    (fun r t hr ⟨h, filtered⟩ => filter_next (s := s.filterStarted) rfl op moves image rule hr h filtered)
    ⟨afterRows_rowsStart _ busy, fun q hq => absurd hq (Nat.not_lt_zero q)⟩

/-- An accepted DEFILTER over a filtered image is done after HEIGHT + 1 steps and leaves the raw image in OUT (R240, R274). -/
theorem defilter_run (busy : s.state = .busy) (start : s.phase = .start) (moves : s.moves = []) (op : cmdOp s.cmdl = 2)
    (image : s.HoldsImage (s.stride + 1) s.stride) (rule : defilterRule (decodeFilterType type) pred)
    (filtered : HoldsFiltered type pred raw s.stride s.height.toNat s.inByte) :
    ∃ t, Host.Core.run core (s.height.toNat + 1) s = .next t ∧ s.defilterStarted.AfterRows s.stride s.height.toNat t ∧
      ∀ k, k < s.height.toNat * s.stride → t.outByte k = raw k := by
  have started : step s = .next (tickOn (rowsStart s.defilterStarted)) := by
    have first : exec .defilter { s with phase := .run } = .next (rowsStart s.defilterStarted) :=
      execDefilter_start (s := { s with phase := .run }) image.windows image.src image.dst
    rw [step_busy busy moves, engineStep_start start, decodeCommand_defilter op, first, andThen_next]
  have image : s.defilterStarted.HoldsImage (s.stride + 1) s.stride := ⟨image.windows, image.src, image.dst⟩
  rw [run_succ_of_step (M := core) started]
  exact run_of_steps (P := fun r t => s.defilterStarted.AfterRows s.stride r t ∧
      ∀ k, k < r * s.stride → t.outByte k = raw k)
    (fun r t hr ⟨h, earlier⟩ => defilter_next (s := s.defilterStarted) rfl op moves image rule filtered hr h earlier)
    ⟨afterRows_rowsStart _ busy, fun k hk => absurd hk (by omega)⟩

end

/-- The row instructions that a filter type selects in FILTER and in DEFILTER have one predictor (R257). -/
theorem exists_pred_of_type {ft : BitVec 3} (h : ft.toNat ≤ 4) :
    ∃ pred, filterRule (decodeFilterRow ft) (ft.setWidth 8) pred ∧ defilterRule (decodeFilterType (ft.setWidth 8)) pred := by
  have types : ∀ ft : BitVec 3, ft.toNat ≤ 4 → ft = 0 ∨ ft = 1 ∨ ft = 2 ∨ ft = 3 ∨ ft = 4 := by decide
  obtain ⟨f0, f1, f2, f3, f4⟩ := filterRowPredicts
  obtain ⟨d0, d1, d2, d3, d4⟩ := defilterRowReconstructs
  rcases types ft h with rfl | rfl | rfl | rfl | rfl
  · exact ⟨_, f0, d0⟩
  · exact ⟨_, f1, d1⟩
  · exact ⟨_, f2, d2⟩
  · exact ⟨_, f3, d3⟩
  · exact ⟨_, f4, d4⟩

/-- Settles O32: FILTER leaves a filtered image, and DEFILTER of one adds back the predictions that FILTER took off. -/
theorem filterRoundTrip : Obligations.FilterRoundTrip := by
  intro s busy start moves op hf windows src dst
  obtain ⟨pred, filterType, defilterType⟩ := exists_pred_of_type hf
  obtain ⟨t, ran, after, filtered⟩ := filter_run busy start moves op hf ⟨windows, src, dst⟩ filterType
  obtain ⟨done, outLen⟩ := after.finished dst
  refine ⟨t, ran, done, outLen, ?_⟩
  intro base cap w op u windows room
  have stride : u.stride = s.stride := after.stride
  have height : u.height = s.height := after.height
  have noMoves : u.moves = [] := after.moves.trans moves
  have dst : u.stride * u.height.toNat ≤ u.outCap.toNat := by rw [stride, height]; exact room
  have src : (u.stride + 1) * u.height.toNat ≤ u.inLen.toNat := by rw [stride, height]; exact outLen.ge
  obtain ⟨v, ran, after, raw⟩ := defilter_run (s := u) (raw := s.inByte) rfl rfl noMoves op ⟨windows, src, dst⟩ defilterType
    (by rw [stride, height]; exact filtered)
  obtain ⟨done, outLen⟩ := after.finished dst
  rw [stride] at outLen raw
  rw [height] at ran raw
  exact ⟨v, ran, done, height ▸ outLen, fun k hk => raw k (by rwa [Nat.mul_comm])⟩

end Sys2Proof.Machine
end

section
/-! SUPPORT. The CRC engine: CRC_TABLE against its eight steps, and U as a fold over the bytes of IN (R261, R263 to R265). -/

namespace Sys2Proof.Machine

/-! ## CRC_TABLE (R261) -/

/-- CRC_TABLE lists its entries by the eight steps; the kernel computes all 256. -/
theorem crcTable_eq_map : crcTable = (List.range 256).map (fun n => crcEntry (BitVec.ofNat 32 n)) := by decide +kernel

theorem crcTable_length : crcTable.length = 256 := by
  rw [crcTable_eq_map, List.length_map, List.length_range]

theorem crcTable_getD {n : Nat} (h : n < 256) : crcTable.getD n 0 = crcEntry (BitVec.ofNat 32 n) := by
  rw [crcTable_eq_map, List.getD_eq_getElem _ _ (by simpa using h), List.getElem_map, List.getElem_range]

/-- Settles O33: the table is the list of its eight-step entries. -/
theorem crcTableIsEightSteps : Obligations.CrcTableIsEightSteps := ⟨crcTable_length, fun _ => crcTable_getD⟩

/-! ## CRC_UPDATE (R263, R264) -/

/-- The table index of R263: the low byte of CRC_STATE xor the input byte. -/
theorem ofNat_crcIndex (c : Word) (v : Byte) :
    BitVec.ofNat 32 (c.setWidth 8 ^^^ v).toNat = (c ^^^ v.setWidth 32) &&& 0xFF := by
  have low : (c.toNat ^^^ v.toNat) &&& 255 = c.toNat % 2 ^ 8 ^^^ v.toNat := by
    rw [Nat.and_two_pow_sub_one_eq_mod _ 8, Nat.xor_mod_two_pow, Nat.mod_eq_of_lt v.isLt]
  apply BitVec.eq_of_toNat_eq
  rw [BitVec.toNat_ofNat, Nat.mod_eq_of_lt (by omega), BitVec.toNat_xor, BitVec.toNat_setWidth, BitVec.toNat_and, BitVec.toNat_xor,
    BitVec.toNat_setWidth_of_le (by decide)]
  exact low.symm

theorem crcByte_eq (c : Word) (v : Byte) : crcByte c v = crcEntry ((c ^^^ v.setWidth 32) &&& 0xFF) ^^^ (c >>> 8) := by
  rw [crcByte, crcTable_getD (c.setWidth 8 ^^^ v).isLt, ofNat_crcIndex]

theorem crcBytes_eq_crcOver (m : List Host.Cell) (base : Addr) (n i : Nat) (c : Word) :
    crcBytes m base n i c = crcOver c ((List.range' i n).map (fun k => Memory.read m (windowAddr base k))) := by
  induction n generalizing i c with
  | zero => rfl
  | succ n ih => rw [crcBytes, ih, crcByte_eq]; rfl

theorem crcBytes_inBytes (s : State) : crcBytes s.mem s.inBase s.inLen.toNat 0 s.crcState = crcOver s.crcState s.inBytes := by
  rw [crcBytes_eq_crcOver, State.inBytes, List.range_eq_range']; rfl

theorem execCrcUpdate_fits {s : State} (h : s.inBase.toNat + s.inLen.toNat ≤ 2 ^ 32) :
    execCrcUpdate s = .next { s with crcState := crcOver s.crcState s.inBytes, state := .done } := by
  have run : execCrcUpdate s = .next (complete { s with crcState := crcBytes s.mem s.inBase s.inLen.toNat 0 s.crcState }) :=
    if_pos (decide_eq_true h)
  rw [run, crcBytes_inBytes]; rfl

theorem execCrcUpdate_wraps {s : State} (h : 2 ^ 32 < s.inBase.toNat + s.inLen.toNat) :
    execCrcUpdate s = .next (raise .crcUpdate .argInvalid noPos s) :=
  if_neg (by rw [State.inOk, decide_eq_true_eq]; omega)

/-- Settles O34: the loop over IN is the fold U, whose table entries are R261's. -/
theorem crcUpdateRunsOverIn : Obligations.CrcUpdateRunsOverIn := fun _ => ⟨execCrcUpdate_fits, execCrcUpdate_wraps⟩

/-! ## A window in two parts (R263 (b)) -/

theorem windowAddr_add (base a : Addr) (k : Nat) : windowAddr (base + a) k = windowAddr base (a.toNat + k) := by
  rw [windowAddr, windowAddr, BitVec.ofNat_add, BitVec.ofNat_toNat, BitVec.setWidth_eq, BitVec.add_assoc]

/-- A window of `a + b` bytes holds the bytes of its first `a` and then those of the `b` after them. -/
theorem inBytes_add (s : State) {a b : Word} (h : a.toNat + b.toNat < 2 ^ 32) :
    { s with inLen := a + b }.inBytes =
      { s with inLen := a }.inBytes ++ { s with inBase := s.inBase + a, inLen := b }.inBytes := by
  have second : { s with inBase := s.inBase + a, inLen := b }.inByte = fun k => s.inByte (a.toNat + k) :=
    funext fun k => congrArg s.memRead (windowAddr_add s.inBase a k)
  rw [State.inBytes, State.inBytes, State.inBytes, second, BitVec.toNat_add_of_lt h, List.range_add, List.map_append, List.map_map]
  rfl

/-- Settles O35: IN is the bytes of A and then those of B, and U is a fold. -/
theorem crcUpdateIsIncremental : Obligations.CrcUpdateIsIncremental := by
  intro s a b fits total
  have sum : (a + b).toNat = a.toNat + b.toNat := BitVec.toNat_add_of_lt total
  have second : (s.inBase + a).toNat + b.toNat ≤ 2 ^ 32 := by rw [BitVec.toNat_add]; omega
  refine ⟨_, _, _, execCrcUpdate_fits ?_, execCrcUpdate_fits second, execCrcUpdate_fits ?_, ?_⟩
  · show s.inBase.toNat + a.toNat ≤ 2 ^ 32; omega
  · show s.inBase.toNat + (a + b).toNat ≤ 2 ^ 32; omega
  · exact ((congrArg (crcOver s.crcState) (inBytes_add s total)).trans List.foldl_append).symm

/-! ## CRC_CHECK (R265, R71) -/

theorem expectedCrc_toNat (s : State) :
    s.expectedCrc.toNat =
      (s.inByte 0).toNat * 2 ^ 24 + (s.inByte 1).toNat * 2 ^ 16 + (s.inByte 2).toNat * 2 ^ 8 + (s.inByte 3).toNat := by
  simp only [State.expectedCrc, toNat_append_eq_add, State.inByte]
  omega

theorem crcCheckOk_iff {s : State} :
    (s.inOk && decide (4 ≤ s.inLen.toNat)) = true ↔ s.inBase.toNat + s.inLen.toNat ≤ 2 ^ 32 ∧ 4 ≤ s.inLen.toNat := by
  rw [State.inOk, Bool.and_eq_true, decide_eq_true_eq, decide_eq_true_eq]

theorem execCrcCheck_fits {s : State} (h : s.inBase.toNat + s.inLen.toNat ≤ 2 ^ 32) (four : 4 ≤ s.inLen.toNat) :
    execCrcCheck s = .next (complete { s with result := s.crcValue, crcMatch := decide (s.crcValue = s.expectedCrc) }) :=
  if_pos (crcCheckOk_iff.mpr ⟨h, four⟩)

theorem execCrcCheck_badWindow {s : State} (h : 2 ^ 32 < s.inBase.toNat + s.inLen.toNat ∨ s.inLen.toNat < 4) :
    execCrcCheck s = .next (raise .crcCheck .argInvalid noPos s) :=
  if_neg (by rw [crcCheckOk_iff]; omega)

/-- Settles O36: the words are equal when their numbers are, and the expected word's number is that of the four bytes. -/
theorem crcCheckCompares : Obligations.CrcCheckCompares := by
  refine fun s => ⟨fun fits four => (execCrcCheck_fits fits four).trans ?_, execCrcCheck_badWindow⟩
  rw [← expectedCrc_toNat, decide_eq_decide.mpr BitVec.toNat_inj.symm]
  rfl

/-! ## Commands without operands (R262, R272, R286, R287) -/

/-- Settles O37: each is its own writes and then `complete`. -/
theorem plainCommandsComplete : Obligations.PlainCommandsComplete := fun _ => ⟨rfl, rfl, rfl, rfl⟩

end Sys2Proof.Machine
end

section
/-! SUPPORT. Termination (R290): every element of INFLATE spends bits of the stream, every row counts on, and every other command
ends in its start step. -/

namespace Sys2Proof.Machine

/-! ## Bits spent by a fetch (R101) -/

/-- The number of bits the cursor can still read. -/
def State.bitsLeft (s : State) : Nat := s.cursorBits.length

theorem bitsLeft_eq (s : State) : s.bitsLeft = s.bitCnt.toNat + 8 * (s.inLen.toNat - s.inPos.toNat) := s.cursorBits_length

section
variable {s t : State} {i : Instr}

theorem readBits_spends {n v : Nat} (hn : n ≤ 32) (h : readBits n s = some (v, t)) : t.bitsLeft + n = s.bitsLeft := by
  obtain ⟨enough, few⟩ := readBits_cursorBits hn s
  by_cases size : n ≤ s.cursorBits.length
  · obtain ⟨u, read, bits, -⟩ := enough size
    rw [read] at h
    cases h
    rw [State.bitsLeft, bits, List.length_drop, Nat.sub_add_cancel size, State.bitsLeft]
  · rw [few (Nat.not_le.1 size)] at h; cases h

theorem readField_spends {n : Nat} {v : BitVec n} (hn : n ≤ 32) (h : readField cursorSource n s = .ok (v, t)) :
    t.bitsLeft + n = s.bitsLeft := by
  unfold readField at h
  split at h
  · cases h
  · rename_i e; cases h; exact readBits_spends hn e

theorem readExtra_bitsLeft_le {n v : Nat} (hn : n ≤ 32) (h : readExtra cursorSource n s = .ok (v, t)) :
    t.bitsLeft ≤ s.bitsLeft := by
  unfold readExtra at h
  repeat' split at h
  · cases h; exact Nat.le_refl _
  · cases h
  · rename_i e; cases h; exact Nat.le.intro (readBits_spends hn e)

theorem readLengths_spends {n : Nat} {ls : List (BitVec 3)} (h : readLengths cursorSource n s = .ok (ls, t)) :
    t.bitsLeft + 3 * n = s.bitsLeft := by
  induction n generalizing s ls with
  | zero => cases h; rfl
  | succ n ih =>
    unfold readLengths at h
    repeat' split at h
    · cases h
    · cases h
    · rename_i first _ _ _ rest
      cases h
      have := readField_spends (by decide) first
      have := ih rest
      omega

theorem walk_spends {T : Table} {draw fuel L code first index : Nat} {v : BitVec 9}
    (h : walk cursorSource T draw fuel L code first index s = .ok (v, t)) : t.bitsLeft < s.bitsLeft := by
  induction fuel generalizing s L code first index with
  | zero => cases h
  | succ n ih =>
    unfold walk at h
    split at h
    · cases h
    · rename_i e
      have bit := readBits_spends (by decide) e
      split at h
      · cases h; omega
      · have := ih h; omega

theorem decodeSym_spends {T : Table} {draw : Nat} {v : BitVec 9} (h : decodeSym cursorSource T draw s = .ok (v, t)) :
    t.bitsLeft < s.bitsLeft := walk_spends h

theorem readHeader_spends {v : BitVec 1 × BitVec 2} (h : readHeader cursorSource s = .ok (v, t)) :
    t.bitsLeft < s.bitsLeft := by
  unfold readHeader at h
  repeat' split at h
  · cases h
  · cases h
  · rename_i final _ _ _ type
    cases h
    have := readField_spends (by decide) final
    have := readField_spends (by decide) type
    omega

theorem alignToByte_bitsLeft_le (s : State) : (alignToByte s).bitsLeft ≤ s.bitsLeft := by
  rw [bitsLeft_eq, bitsLeft_eq]
  exact Nat.add_le_add_right (Nat.zero_le _) _

theorem decodeStoredHeader_spends (h : decodeStoredHeader cursorSource s = .ok (i, t)) : t.bitsLeft < s.bitsLeft := by
  have start : (cursorSource.align s).bitsLeft ≤ s.bitsLeft := alignToByte_bitsLeft_le s
  unfold decodeStoredHeader at h
  repeat' split at h
  · cases h
  · cases h
  · rename_i len _ _ _ nlen
    cases h
    have := readField_spends (by decide) len
    have := readField_spends (by decide) nlen
    omega

theorem decodeDynHeader_spends (h : decodeDynHeader cursorSource s = .ok (i, t)) : t.bitsLeft < s.bitsLeft := by
  unfold decodeDynHeader at h
  repeat' split at h
  · cases h
  · cases h
  · cases h
  · rename_i hlit _ _ _ hdist _ _ _ hclen
    cases h
    have := readField_spends (by decide) hlit
    have := readField_spends (by decide) hdist
    have := readField_spends (by decide) hclen
    omega

theorem decodeLitLen_spends {c : Ctx} (h : decodeLitLen cursorSource c s = .ok (i, t)) : t.bitsLeft < s.bitsLeft := by
  unfold decodeLitLen at h
  repeat' split at h
  · cases h
  · cases h
  · rename_i sym _ _ _ extra
    cases h
    exact Nat.lt_of_le_of_lt (readExtra_bitsLeft_le (lext_le _) extra) (decodeSym_spends sym)

theorem decodeDistance_spends {c : Ctx} (h : decodeDistance cursorSource c s = .ok (i, t)) : t.bitsLeft < s.bitsLeft := by
  unfold decodeDistance at h
  repeat' split at h
  · cases h
  · cases h
  · rename_i sym _ _ _ extra
    cases h
    exact Nat.lt_of_le_of_lt (readExtra_bitsLeft_le (dext_le _) extra) (decodeSym_spends sym)

/-- A code-length symbol spends its code, whatever extra bits follow (R149). -/
theorem decodeClSymbol_spends {c : Ctx} (h : decodeClSymbol cursorSource c s = .ok (i, t)) : t.bitsLeft < s.bitsLeft := by
  unfold decodeClSymbol at h
  split at h
  · cases h
  · rename_i u e
    have sym : u.bitsLeft < s.bitsLeft := decodeSym_spends e
    have extra : ∀ {n : Nat} {v : BitVec n} {w : State}, n ≤ 32 → readField cursorSource n u = .ok (v, w) →
        w.bitsLeft < s.bitsLeft := fun hn e => Nat.lt_of_le_of_lt (Nat.le.intro (readField_spends hn e)) sym
    repeat' split at h
    · cases h; exact sym
    · cases h
    · rename_i two; cases h; exact extra (by decide) two
    · cases h; exact sym
    · cases h
    · rename_i three; cases h; exact extra (by decide) three
    · cases h
    · rename_i seven; cases h; exact extra (by decide) seven
    · cases h

theorem map_spends {α : Type} {r : Except DecodeError (α × State)} {f : α × State → Instr}
    (hr : ∀ a u, r = .ok (a, u) → u.bitsLeft < s.bitsLeft) (h : (r.map fun p => (f p, p.2)) = .ok (i, t)) :
    t.bitsLeft < s.bitsLeft := by
  cases r with
  | error d => cases h
  | ok p => cases h; exact hr p.1 p.2 rfl

/-- Fetching an instruction of INFLATE's stream spends at least one bit (R81 to R86). -/
theorem decode_spends {elem : Elem} {c : Ctx} (stream : isStreamFormat elem = true)
    (lengths : elem = .dynClLengths → 1 ≤ c.hclen) (h : decode cursorSource elem c s = .ok (i, t)) :
    t.bitsLeft < s.bitsLeft := by
  cases elem with
  | blockHeader => exact map_spends (fun _ _ => readHeader_spends) h
  | blockType => exact map_spends (fun _ _ => readHeader_spends) h
  | storedHeader => exact decodeStoredHeader_spends h
  | storedByte =>
    refine map_spends (fun _ _ e => ?_) h
    have := readField_spends (by decide) e
    omega
  | dynHeader => exact decodeDynHeader_spends h
  | dynClLengths =>
    refine map_spends (fun _ _ e => ?_) h
    have := readLengths_spends e
    have := lengths rfl
    omega
  | clSymbol => exact decodeClSymbol_spends h
  | litLen => exact decodeLitLen_spends h
  | distance => exact decodeDistance_spends h
  | defilterRow | command | filterRow => cases stream

/-! ## Elements of INFLATE -/

/-- The command is over (R270, R300). -/
def State.finished (s : State) : Prop := s.state = .done ∨ s.state = .error

/-- An element's instruction ends the command, or leaves STATE and the cursor as they are. -/
theorem ElementOutcome.progress (h : ElementOutcome s t) : t.finished ∨ t.state = s.state ∧ t.bitsLeft = s.bitsLeft := by
  cases h with
  | raises d => exact .inl (.inr rfl)
  | goesOn only state _ => exact .inr ⟨state, by rw [bitsLeft_eq, bitsLeft_eq, only]⟩
  | done _ state _ _ => exact .inl (.inl state)

/-- A fetch and its instruction end the command, or bits were spent. -/
theorem runElement_progress {elem : Elem} (stream : isStreamFormat elem = true)
    (lengths : elem = .dynClLengths → 1 ≤ s.hclen.toNat) (h : runElement elem s = .next t) :
    t.finished ∨ t.state = s.state ∧ t.bitsLeft < s.bitsLeft := by
  unfold runElement at h
  split at h
  · rename_i u e
    have spent := decode_spends stream lengths e
    have state : u.state = s.state := by have only := decode_cursorOnly e; unfold State.cursorOnly at only; rw [only]
    have outcome := exec_elementOutcome ((formatOf_decode stream e).symm ▸ stream) h
    rw [← state]
    exact outcome.progress.imp_right fun ⟨same, left⟩ => ⟨same, left ▸ spent⟩
  · cases h; exact .inl (.inr rfl)
  · cases h; exact .inl (.inr rfl)
  · cases h

/-- The second part of an element ends the command, or spends bits at most (R131, R162). -/
theorem continueElement_progress (h : continueElement s = .next t) :
    t.finished ∨ t.state = s.state ∧ t.bitsLeft ≤ s.bitsLeft := by
  cases pending : s.pending with
  | none => rw [continueElement_none pending] at h; cases h; exact .inr ⟨rfl, Nat.le_refl _⟩
  | blockType =>
    rw [continueElement_blockType pending] at h
    have outcome := exec_elementOutcome (by rw [formatOf_decodeBlockType]; rfl) h
    exact outcome.progress.imp_right fun ⟨state, left⟩ => ⟨state, left.le⟩
  | distance len =>
    rw [continueElement_distance pending] at h
    exact (runElement_progress (elem := .distance) rfl nofun h).imp_right fun ⟨state, left⟩ => ⟨state, left.le⟩

theorem continueElement_fixedPart (h : continueElement s = .next t) : t.fixedPart = s.fixedPart := by
  cases pending : s.pending with
  | none => rw [continueElement_none pending] at h; cases h; rfl
  | blockType => rw [continueElement_blockType pending] at h; exact exec_fixedPart h
  | distance len => rw [continueElement_distance pending] at h; exact runElement_fixedPart h

/-- A step of INFLATE ends the command, or spends bits (R130). -/
theorem inflateStep_progress (pending : s.pending = .none) (lengths : s.st = .dynCll → 1 ≤ s.hclen.toNat)
    (h : inflateStep s = .next t) :
    (t.finished ∨ t.state = s.state ∧ t.bitsLeft < s.bitsLeft) ∧ t.fixedPart = (markStart s).fixedPart := by
  cases he : elemOf s.st with
  | none => simp [inflateStep, pending, he] at h
  | some elem =>
    rw [inflateStep_element pending he] at h
    obtain ⟨u, first, second⟩ := andThen_eq_next.1 h
    have dynCll : elem = .dynClLengths → s.st = .dynCll := by
      rintro rfl
      revert he
      cases s.st <;> simp [elemOf]
    have part1 := runElement_progress (s := markStart s) (isStreamFormat_of_elemOf he) (fun e => lengths (dynCll e)) first
    have part2 := continueElement_progress second
    refine ⟨?_, (continueElement_fixedPart second).trans (runElement_fixedPart first)⟩
    rcases part2 with ends | ⟨state, left⟩
    · exact .inl ends
    · rcases part1 with ends | ⟨state', left'⟩
      · exact .inl (by rwa [State.finished, state])
      · exact .inr ⟨state.trans state', Nat.lt_of_le_of_lt left left'⟩

/-! ## Rows (R240, R248) -/

/-- A row ends the command, or counts on. -/
theorem rowDone_progress (n : Nat) (m : List Host.Cell) (s : State) :
    (rowDone n m s).finished ∨ (rowDone n m s).state = s.state ∧ (rowDone n m s).sfbRow = s.sfbRow + 1 := by
  unfold rowDone
  split
  · exact .inl (.inl rfl)
  · exact .inr ⟨rfl, rfl⟩

theorem exec_decodeFilterType_progress {f : Byte} (h : exec (decodeFilterType f) s = .next t) :
    t.finished ∨ t.state = s.state ∧ t.sfbRow = s.sfbRow + 1 := by
  unfold decodeFilterType at h
  split at h
  case h_6 => cases h; exact .inl (.inr rfl)
  all_goals cases h; exact rowDone_progress _ _ _

theorem exec_decodeFilterRow_progress {ft : BitVec 3} (h : exec (decodeFilterRow ft) s = .next t) :
    t.finished ∨ t.state = s.state ∧ t.sfbRow = s.sfbRow + 1 := by
  unfold decodeFilterRow at h
  split at h
  case h_6 | h_7 | h_8 => cases h; exact .inl (.inr rfl)
  all_goals cases h; exact rowDone_progress _ _ _

/-! ## The start step (R271) -/

theorem rowsStart_progress (s : State) : (rowsStart s).finished ∨ (rowsStart s).state = s.state ∧ (rowsStart s).sfbRow = 0 := by
  unfold rowsStart
  split
  · exact .inl (.inl rfl)
  · exact .inr ⟨rfl, rfl⟩

theorem execDefilter_progress (h : execDefilter s = .next t) : t.finished ∨ t.state = s.state ∧ t.sfbRow = 0 := by
  unfold execDefilter at h
  repeat' split at h
  · cases h; exact .inl (.inr rfl)
  · cases h; exact rowsStart_progress s
  · cases h; exact .inl (.inr rfl)

theorem execFilter_progress {ft : BitVec 3} (h : execFilter ft s = .next t) :
    t.finished ∨ t.state = s.state ∧ t.sfbRow = 0 := by
  unfold execFilter at h
  repeat' split at h
  · cases h; exact .inl (.inr rfl)
  · cases h; exact .inl (.inr rfl)
  · cases h; exact rowsStart_progress _
  · cases h; exact .inl (.inr rfl)

theorem exec_decodeFilterStart_progress {ft : BitVec 3} (h : exec (decodeFilterStart ft) s = .next t) :
    t.finished ∨ t.state = s.state ∧ t.sfbRow = 0 := by
  unfold decodeFilterStart at h
  split at h
  case h_4 => exact execFilter_progress h
  all_goals cases h; exact .inl (.inr rfl)

theorem execInflate_progress (h : execInflate s = .next t) : t.finished ∨ t.state = s.state ∧ t.bitsLeft = 8 * s.inLen.toNat := by
  unfold execInflate at h
  split at h <;> cases h
  · exact .inr ⟨rfl, (bitsLeft_eq _).trans (Nat.zero_add _)⟩
  · exact .inl (.inr rfl)

/-! ## Commands of one step (R290) -/

theorem execCrcUpdate_finished (h : execCrcUpdate s = .next t) : t.finished := by
  unfold execCrcUpdate at h
  split at h <;> cases h
  · exact .inl rfl
  · exact .inr rfl

theorem execCrcCheck_finished (h : execCrcCheck s = .next t) : t.finished := by
  unfold execCrcCheck at h
  split at h <;> cases h
  · exact .inl rfl
  · exact .inr rfl

theorem execHuffBuild_finished {tbl : BitVec 2} (h : execHuffBuild tbl s = .next t) : t.finished := by
  unfold execHuffBuild at h
  split at h <;> cases h
  · exact .inr rfl
  · exact .inl rfl

theorem execHuffDecode_finished {tbl : BitVec 2} (h : execHuffDecode tbl s = .next t) : t.finished := by
  unfold execHuffDecode at h
  repeat' split at h
  · cases h; exact .inl rfl
  all_goals cases h; exact .inr rfl

theorem execBitsRead_finished {n : BitVec 6} (h : execBitsRead n s = .next t) : t.finished := by
  unfold execBitsRead at h
  repeat' split at h
  · cases h; exact .inl rfl
  all_goals cases h; exact .inr rfl

/-- The start step ends the command, but for INFLATE with all of IN to read, and DEFILTER or FILTER before row 0. -/
theorem exec_decodeCommand_progress {w : Word} (notClear : cmdOp w ≠ 0xF) (h : exec (decodeCommand w) s = .next t) :
    t.finished ∨ t.state = s.state ∧
      (cmdOp w = 1 ∧ t.bitsLeft = 8 * s.inLen.toNat ∨ (cmdOp w = 2 ∨ cmdOp w = 3) ∧ t.sfbRow = 0) := by
  unfold decodeCommand at h
  split at h
  case h_2 op =>
    exact (execInflate_progress h).imp_right fun ⟨state, left⟩ => ⟨state, .inl ⟨BitVec.eq_of_toNat_eq op, left⟩⟩
  case h_3 op =>
    exact (execDefilter_progress h).imp_right fun ⟨state, row⟩ => ⟨state, .inr ⟨.inl (BitVec.eq_of_toNat_eq op), row⟩⟩
  case h_4 op =>
    exact (exec_decodeFilterStart_progress h).imp_right fun ⟨state, row⟩ =>
      ⟨state, .inr ⟨.inr (BitVec.eq_of_toNat_eq op), row⟩⟩
  case h_1 | h_5 | h_11 | h_12 => cases h; exact .inl (.inl rfl)
  case h_6 => exact .inl (execCrcUpdate_finished h)
  case h_7 => exact .inl (execCrcCheck_finished h)
  case h_8 => exact .inl (execHuffBuild_finished h)
  case h_9 => exact .inl (execHuffDecode_finished h)
  case h_10 => exact .inl (execBitsRead_finished h)
  case h_13 | h_14 | h_15 => cases h; exact .inl (.inr rfl)
  case h_16 =>
    refine absurd (BitVec.eq_of_toNat_eq (y := 0xF) ?_) notClear
    have := (cmdOp w).isLt
    show (cmdOp w).toNat = 15
    simp only [imp_false] at *
    omega

/-! ## A running command -/

/-- ENGINE steps that a running command takes at most: one a bit that IN has left and one more, or one a row that is left. -/
def State.stepsLeft (s : State) : Nat :=
  if cmdOp s.cmdl = 1 then s.bitsLeft + 1 else s.height.toNat - s.sfbRow.toNat

/-- `t` is a state of the same command as `s`, with the same schedule. -/
abbrev State.sameCommand (s t : State) : Prop :=
  t.cmdl = s.cmdl ∧ t.height = s.height ∧ t.moves = s.moves ∧ t.phase = s.phase

theorem sameCommand_of_fixedPart (h : t.fixedPart = s.fixedPart) : s.sameCommand t := by
  simp only [State.fixedPart, Prod.mk.injEq] at h
  obtain ⟨⟨-, -, -, -, -, -, height, -⟩, cmdl, phase, moves, -⟩ := h
  exact ⟨cmdl, height, moves, phase⟩

theorem stepsLeft_inflate (op : cmdOp s.cmdl = 1) : s.stepsLeft = s.bitsLeft + 1 := if_pos op

theorem stepsLeft_rows (op : cmdOp s.cmdl ≠ 1) : s.stepsLeft = s.height.toNat - s.sfbRow.toNat := if_neg op

/-- A row that counts on leaves one row fewer. -/
theorem stepsLeft_of_row (same : s.sameCommand t) (op : cmdOp s.cmdl ≠ 1) (more : s.sfbRow.toNat < s.height.toNat)
    (row : t.sfbRow = s.sfbRow + 1) : t.stepsLeft < s.stepsLeft := by
  have := s.height.isLt
  have next : t.sfbRow.toNat = s.sfbRow.toNat + 1 := by
    rw [row, BitVec.toNat_add, show (1 : Word).toNat = 1 from rfl, Nat.mod_eq_of_lt (by omega)]
  obtain ⟨cmdl, height, -⟩ := same
  rw [stepsLeft_rows op, stepsLeft_rows (cmdl ▸ op), height]
  omega

/-- ENGINE's next step in a running command ends it, or leaves fewer steps (R290). -/
theorem engineStep_progress (h : s.inv) (busy : s.state = .busy) (run : s.phase = .run) (e : engineStep s = .next t) :
    (t.finished ∨ t.state = s.state ∧ t.stepsLeft < s.stepsLeft) ∧ s.sameCommand t := by
  obtain ⟨-, -, ⟨-, -, -, -, -, pending, -, ops⟩, running⟩ := h
  obtain ⟨inflate, defilter, filter⟩ := running busy run
  rcases ops busy run with op | op | op
  · obtain ⟨-, -, -, -, dynCll, -⟩ := inflate op
    rw [engineStep_inflate run op] at e
    obtain ⟨progress, fixed⟩ := inflateStep_progress pending (fun st => by have := dynCll st; omega) e
    have same : s.sameCommand t := sameCommand_of_fixedPart (s := markStart s) fixed
    refine ⟨progress.imp_right fun ⟨state, left⟩ => ⟨state, ?_⟩, same⟩
    rw [stepsLeft_inflate op, stepsLeft_inflate (same.1 ▸ op)]
    exact Nat.succ_lt_succ left
  · obtain ⟨-, -, -, more⟩ := defilter op
    rw [engineStep_defilter run op] at e
    have same := sameCommand_of_fixedPart (exec_fixedPart e)
    exact ⟨(exec_decodeFilterType_progress e).imp_right fun ⟨state, row⟩ =>
      ⟨state, stepsLeft_of_row same (by rw [op]; decide) more row⟩, same⟩
  · obtain ⟨⟨-, -, -, more⟩, -⟩ := filter op
    rw [engineStep_filter run op] at e
    have same := sameCommand_of_fixedPart (exec_fixedPart e)
    exact ⟨(exec_decodeFilterRow_progress e).imp_right fun ⟨state, row⟩ =>
      ⟨state, stepsLeft_of_row same (by rw [op]; decide) more row⟩, same⟩

/-- A command past its start step, with no move of the host to come. -/
structure State.Running (s : State) : Prop where
  inv : s.inv
  busy : s.state = .busy
  run : s.phase = .run
  moves : s.moves = []

/-- A step of a BUSY block with no move scheduled is ENGINE's, and it keeps the invariant (R14, R270). -/
theorem step_of_busy (h : s.inv) (busy : s.state = .busy) (moves : s.moves = []) :
    ∃ u, engineStep s = .next u ∧ step s = .next (tickOn u) ∧ (tickOn u).inv := by
  obtain ⟨t, stepped, inv⟩ := step_inv_of_turn h (by rw [turn, moves]; exact engineTurn_controlOk h)
  have engine := stepped
  rw [step_busy busy moves] at engine
  obtain ⟨u, ran, counted⟩ := andThen_eq_next.1 engine
  cases counted
  exact ⟨u, ran, stepped, inv⟩

theorem State.Running.stepsLeft_pos (h : s.Running) : 0 < s.stepsLeft := by
  obtain ⟨-, -, ⟨-, -, -, -, -, -, -, ops⟩, running⟩ := h.inv
  obtain ⟨-, defilter, filter⟩ := running h.busy h.run
  rcases ops h.busy h.run with op | op | op
  · rw [stepsLeft_inflate op]; exact Nat.succ_pos _
  · obtain ⟨-, -, -, more⟩ := defilter op
    rw [stepsLeft_rows (by rw [op]; decide)]; omega
  · obtain ⟨⟨-, -, -, more⟩, -⟩ := filter op
    rw [stepsLeft_rows (by rw [op]; decide)]; omega

theorem State.Running.step (h : s.Running) :
    ∃ t, Machine.step s = .next t ∧ (t.finished ∨ t.Running ∧ t.stepsLeft < s.stepsLeft) := by
  obtain ⟨u, ran, stepped, inv⟩ := step_of_busy h.inv h.busy h.moves
  obtain ⟨progress, -, -, moves, phase⟩ := engineStep_progress h.inv h.busy h.run ran
  exact ⟨tickOn u, stepped, progress.imp_right fun ⟨state, left⟩ =>
    ⟨⟨inv, state.trans h.busy, phase.trans h.run, moves.trans h.moves⟩, left⟩⟩

/-- A running command ends within the steps it has left: induction on their number. -/
theorem State.Running.finishes {n : Nat} (h : s.Running) (bound : s.stepsLeft ≤ n) :
    ∃ k t, k ≤ n ∧ Host.Core.run core k s = .next t ∧ t.finished := by
  induction n generalizing s with
  | zero => exact absurd h.stepsLeft_pos (Nat.not_lt.2 bound)
  | succ n ih =>
    obtain ⟨t, stepped, ends | ⟨running, left⟩⟩ := h.step
    · exact ⟨1, t, Nat.succ_pos n, run_succ_of_step (M := core) stepped 0, ends⟩
    · obtain ⟨k, u, le, ran, ends⟩ := ih running (by omega)
      exact ⟨k + 1, u, Nat.succ_le_succ le, (run_succ_of_step (M := core) stepped k).trans ran, ends⟩

/-! ## An accepted command -/

/-- R290's bound on the ENGINE steps of an accepted command. -/
def State.commandBound (s : State) : Nat :=
  if cmdOp s.cmdl = 1 then 8 * s.inLen.toNat + 2
  else if cmdOp s.cmdl = 2 ∨ cmdOp s.cmdl = 3 then s.height.toNat + 1 else 1

theorem commandBound_pos (s : State) : 1 ≤ s.commandBound := by unfold State.commandBound; split_ifs <;> omega

/-- The start step ends the command, or leaves it running with one step fewer than its bound. -/
theorem startStep_progress (h : s.inv) (busy : s.state = .busy) (start : s.phase = .start) (moves : s.moves = []) :
    ∃ t, step s = .next t ∧ (t.finished ∨ t.Running ∧ t.stepsLeft + 1 ≤ s.commandBound) := by
  obtain ⟨u, ran, stepped, inv⟩ := step_of_busy h busy moves
  obtain ⟨-, -, ⟨-, -, -, -, -, -, accepted, -⟩, -⟩ := h
  obtain ⟨-, notClear⟩ := accepted busy
  rw [engineStep_start start] at ran
  obtain ⟨cmdl, height, sameMoves, phase⟩ := sameCommand_of_fixedPart (exec_fixedPart ran)
  refine ⟨tickOn u, stepped, (exec_decodeCommand_progress notClear ran).imp_right fun ⟨state, left⟩ =>
    ⟨⟨inv, state.trans busy, phase, sameMoves.trans moves⟩, ?_⟩⟩
  show u.stepsLeft + 1 ≤ s.commandBound
  unfold State.stepsLeft State.commandBound
  rw [cmdl, height]
  rcases left with ⟨op, bits⟩ | ⟨op, row⟩
  · rw [if_pos op, if_pos op, bits]
  · have one : cmdOp s.cmdl ≠ 1 := by rcases op with e | e <;> rw [e] <;> decide
    rw [if_neg one, if_neg one, if_pos op, row]
    exact Nat.le_refl _

end

/-- Settles O60: the start step, then at most a step for each bit of IN and one more, or for each row. -/
theorem everyCommandTerminates : Obligations.EveryCommandTerminates := by
  intro s inv busy start moves
  show ∃ n t, n ≤ s.commandBound ∧ Host.Core.run core n s = .next t ∧ t.finished
  obtain ⟨t, stepped, ends | ⟨running, left⟩⟩ := startStep_progress inv busy start moves
  · exact ⟨1, t, commandBound_pos s, run_succ_of_step (M := core) stepped 0, ends⟩
  · obtain ⟨n, u, le, ran, ends⟩ := running.finishes (Nat.le_refl _)
    exact ⟨n + 1, u, by omega, (run_succ_of_step (M := core) stepped n).trans ran, ends⟩

end Sys2Proof.Machine
end

section
/-! SUPPORT. The cursor commands and the table command (R283 to R285), each by its checks, then by what it reads; CLEAR and CMD
writes (R270, R289). -/

namespace Sys2Proof.Machine

/-! ## BITS_READ (R285) -/

theorem bitsValue_lt (l : List Bool) : bitsValue l < 2 ^ l.length := by
  induction l with
  | nil => exact Nat.one_pos
  | cons b l ih =>
    have := b.toNat_le
    rw [bitsValue, List.length_cons, Nat.pow_succ]
    omega

/-- At most 32 bits fit in a register. -/
theorem toNat_bitsValue_take {n : Nat} (hn : n ≤ 32) (l : List Bool) :
    (BitVec.ofNat 32 (bitsValue (l.take n))).toNat = bitsValue (l.take n) := by
  have small : bitsValue (l.take n) < 2 ^ 32 :=
    Nat.lt_of_lt_of_le (bitsValue_lt _) (Nat.pow_le_pow_right (by decide) (by rw [List.length_take]; omega))
  rw [BitVec.toNat_ofNat, Nat.mod_eq_of_lt small]

/-- A cursor with a bp reports it (R305). -/
theorem cursorPos_of_bp {s : State} (h : s.bitCnt.toNat ≤ 8 * s.inPos.toNat) : cursorPos s = streamPos s.bp := if_pos h

/-- With enough bits buffered nothing is fetched (R101). -/
theorem refill_buffered {n : Nat} {s : State} (fuel : Nat) (h : n ≤ s.bitCnt.toNat) : refill fuel n s = some s := by
  cases fuel <;> rw [refill, if_neg (Nat.not_lt.2 h)]

theorem readBits_buffered {n : BitVec 6} {s : State} (h : n.toNat ≤ s.bitCnt.toNat) :
    readBits n.toNat s =
      some (s.bitBuf.toNat % 2 ^ n.toNat, { s with bitBuf := s.bitBuf >>> n.toNat, bitCnt := s.bitCnt - n }) := by
  have width : BitVec.ofNat 6 n.toNat = n := by rw [BitVec.ofNat_toNat, BitVec.setWidth_eq]
  rw [readBits, refill_buffered _ h, Option.map_some, takeBits, width]

section
variable {s t : State} {n : BitVec 6}

theorem bitsReadOk_iff :
    (s.inOk && decide (1 ≤ n.toNat ∧ n.toNat ≤ 32)) = true ↔ s.inOk = true ∧ 1 ≤ n.toNat ∧ n.toNat ≤ 32 := by
  rw [Bool.and_eq_true, decide_eq_true_eq]

theorem execBitsRead_badArgument (h : s.inOk = false ∨ n.toNat = 0 ∨ 32 < n.toNat) :
    execBitsRead n s = .next (raise .bitsRead .argInvalid noPos s) := by
  refine if_neg (bitsReadOk_iff.not.2 ?_)
  rintro ⟨ok, pos, le⟩
  rcases h with wraps | zero | wide
  · exact Bool.false_ne_true (wraps.symm.trans ok)
  · omega
  · omega

variable (ok : s.inOk = true) (pos : 1 ≤ n.toNat) (le : n.toNat ≤ 32)
include ok pos le

theorem execBitsRead_some {v : Nat} (e : readBits n.toNat s = some (v, t)) :
    execBitsRead n s = .next (complete { t with result := BitVec.ofNat 32 v }) := by
  rw [execBitsRead, if_pos (bitsReadOk_iff.2 ⟨ok, pos, le⟩), e]

theorem execBitsRead_none (e : readBits n.toNat s = none) :
    execBitsRead n s = .next (raise .bitsRead .truncated (cursorPos s) s) := by
  rw [execBitsRead, if_pos (bitsReadOk_iff.2 ⟨ok, pos, le⟩), e]

/-- With enough bits still to come, their front becomes RESULT, whatever the cursor was left as. -/
theorem execBitsRead_enough (h : n.toNat ≤ s.cursorBits.length) :
    ∃ t, readBits n.toNat s = some (bitsValue (s.cursorBits.take n.toNat), t) ∧ s.cursorOnly t ∧
      t.cursorBits = s.cursorBits.drop n.toNat ∧
      execBitsRead n s = .next (complete { t with result := BitVec.ofNat 32 (bitsValue (s.cursorBits.take n.toNat)) }) := by
  obtain ⟨t, read, bits, only, -⟩ := (readBits_cursorBits le s).1 h
  exact ⟨t, read, only, bits, execBitsRead_some ok pos le read⟩

theorem execBitsRead_short (h : s.cursorBits.length < n.toNat) :
    execBitsRead n s = .next (raise .bitsRead .truncated (cursorPos s) s) :=
  execBitsRead_none ok pos le ((readBits_cursorBits le s).2 h)

theorem execBitsRead_short_bp (h : s.cursorBits.length < n.toNat) (bp : s.bitCnt.toNat ≤ 8 * s.inPos.toNat) :
    execBitsRead n s = .next (raise .bitsRead .truncated (streamPos s.bp) s) := by
  rw [execBitsRead_short ok pos le h, cursorPos_of_bp bp]

end

/-- A completed read writes the cursor, RESULT and STATE alone. -/
theorem complete_result_frame {s t : State} (only : s.cursorOnly t) (v : Word) :
    let u := complete { t with result := v }
    u = { s with inPos := u.inPos, bitCnt := u.bitCnt, bitBuf := u.bitBuf, result := u.result, state := .done } := by
  intro u
  show complete { t with result := v } = _
  rw [only]
  rfl

/-- Settles O39: ReadBits reads the front of the bits still to come, which are the stream's when the cursor stands in it. -/
theorem bitsReadReturnsStreamBits : Obligations.BitsReadReturnsStreamBits := by
  intro s n
  refine ⟨execBitsRead_badArgument, fun ok pos le => ⟨fun cursor fits => ?_, fun cursor short => ?_, fun buffered => ?_,
    fun few empty bp => ?_, fun enough => ?_, fun short => ⟨execBitsRead_short_bp ok pos le short, _,
      execBitsRead_short ok pos le short⟩⟩⟩
  · have rest := cursorBits_eq_rest cursor
    obtain ⟨t, read, only, -, ran⟩ := execBitsRead_enough ok pos le (by rw [rest, rest_bits_length]; omega)
    obtain ⟨cursor', bp⟩ := readBits_cursorOk pos le cursor read
    refine ⟨_, ran, ?_, bp, cursor', complete_result_frame only _⟩
    rw [← take_rest_bits fits, ← rest]
    exact toNat_bitsValue_take le _
  · have rest := cursorBits_eq_rest cursor
    obtain ⟨-, bp, -⟩ := cursor
    exact execBitsRead_short_bp ok pos le (by rw [rest, rest_bits_length]; omega) bp
  · exact execBitsRead_some ok pos le (readBits_buffered buffered)
  · exact execBitsRead_short_bp ok pos le (by rw [State.cursorBits_length]; omega) bp
  · obtain ⟨t, -, only, bits, ran⟩ := execBitsRead_enough ok pos le enough
    exact ⟨_, ran, toNat_bitsValue_take le _, bits, complete_result_frame only _⟩

/-! ## HUFF_DECODE (R284) -/

section
variable {s t : State} {tbl : BitVec 2}

theorem huffDecodeOk_iff : (s.inOk && decide (tbl ≠ 3)) = true ↔ s.inOk = true ∧ tbl ≠ 3 := by
  rw [Bool.and_eq_true, decide_eq_true_eq]

theorem execHuffDecode_badArgument (h : s.inOk = false ∨ tbl = 3) :
    execHuffDecode tbl s = .next (raise .huffDecode .argInvalid noPos s) := by
  refine if_neg (huffDecodeOk_iff.not.2 ?_)
  rintro ⟨ok, named⟩
  rcases h with wraps | three
  · exact Bool.false_ne_true (wraps.symm.trans ok)
  · exact named three

variable (ok : s.inOk = true) (named : tbl ≠ 3)
include ok named

theorem execHuffDecode_ok {sym : BitVec 9} (e : decodeSym cursorSource (s.table tbl) s.tick s = .ok (sym, t)) :
    execHuffDecode tbl s = .next (complete { t with result := sym.setWidth 32 }) := by
  rw [execHuffDecode, if_pos (huffDecodeOk_iff.2 ⟨ok, named⟩), e]

theorem execHuffDecode_huffNoMatch (e : decodeSym cursorSource (s.table tbl) s.tick s = .error .huffNoMatch) :
    execHuffDecode tbl s = .next (raise .huffDecode .huffNoMatch (cursorPos s) s) := by
  rw [execHuffDecode, if_pos (huffDecodeOk_iff.2 ⟨ok, named⟩), e]

theorem execHuffDecode_truncated (e : decodeSym cursorSource (s.table tbl) s.tick s = .error .truncated) :
    execHuffDecode tbl s = .next (raise .huffDecode .truncated (cursorPos s) s) := by
  rw [execHuffDecode, if_pos (huffDecodeOk_iff.2 ⟨ok, named⟩), e]

end

/-- A walk fails only for lack of bits or of a match (R114). -/
theorem decodeSym_ne_noSuchSymbol (T : Table) (draw : Nat) (s : State) :
    decodeSym cursorSource T draw s ≠ .error .noSuchSymbol :=
  (decodeSym_fetches (P := fun _ => True) (fun _ _ _ _ _ _ _ _ => trivial) trivial).1

/-- Settles O40: the walk over the bits still to come at the cursor, which are the stream's when the cursor stands in it. -/
theorem huffDecodeReturnsSymbol : Obligations.HuffDecodeReturnsSymbol := by
  intro s tbl here fails
  have failed : ∀ {d}, execHuffDecode tbl s = .next (raise .huffDecode d (cursorPos s) s) → fails d := fun run =>
    ⟨fun bp => by rw [cursorPos_of_bp bp] at run; exact run, _, run⟩
  refine ⟨fun cursor ok named => ?_, fun ok named => ?_, execHuffDecode_badArgument⟩
  · obtain ⟨-, bp, -⟩ := id cursor
    have alike := decodeSym_alike (bitListSource_cursorSource_alike s) (s.table tbl) s.tick
      (x := s.rest) (y := s) ⟨rfl, cursor, s.cursorOnly_refl⟩
    obtain ⟨d, e, e'⟩ | ⟨sym, y, t, e, e', rest, cursor', only⟩ := alike.cases
    · rw [e]
      cases d with
      | huffNoMatch => exact (failed (execHuffDecode_huffNoMatch ok named e')).1 bp
      | truncated => exact (failed (execHuffDecode_truncated ok named e')).1 bp
      | noSuchSymbol => exact decodeSym_ne_noSuchSymbol _ _ _ e'
    · rw [e]
      exact ⟨_, execHuffDecode_ok ok named e', rfl, rest, cursor', complete_result_frame only _⟩
  · have walked := walk_cursorBits (s.table tbl) s.tick Config.maxBits 1 0 0 0 0 s
    rw [← decodeSym] at walked
    revert walked
    match decodeSym bitListSource (s.table tbl) s.tick { pos := 0, bits := s.cursorBits } with
    | .ok (sym, y) =>
      rintro ⟨t, e, bits, only⟩
      exact ⟨_, execHuffDecode_ok ok named e, rfl, bits, complete_result_frame only _⟩
    | .error .huffNoMatch => exact fun e => failed (execHuffDecode_huffNoMatch ok named e)
    | .error .truncated => exact fun e => failed (execHuffDecode_truncated ok named e)
    | .error .noSuchSymbol => exact fun e => decodeSym_ne_noSuchSymbol _ _ _ e

/-! ## HUFF_BUILD (R283) -/

theorem tableCap_eq (tbl : BitVec 2) : tableCap tbl = if tbl = 0 then 288 else if tbl = 1 then 32 else 19 := by
  revert tbl; decide

theorem tbl_cases (tbl : BitVec 2) : tbl = 0 ∨ tbl = 1 ∨ tbl = 2 ∨ tbl = 3 := by revert tbl; decide

theorem setTable_table (s : State) (tbl : BitVec 2) (T : Table) : (s.setTable tbl T).table tbl = T := by
  rcases tbl_cases tbl with rfl | rfl | rfl | rfl <;> rfl

/-- A completed build writes the table that TBL names, RESULT and STATE alone. -/
theorem complete_setTable_frame (s : State) {tbl : BitVec 2} (named : tbl ≠ 3) (T : Table) (v : Word) :
    let t := complete { s.setTable tbl T with result := v }
    t =
      { s with
        lit := if tbl = 0 then t.lit else s.lit, dist := if tbl = 1 then t.dist else s.dist
        clen := if tbl = 2 then t.clen else s.clen, result := t.result, state := .done } := by
  rcases tbl_cases tbl with rfl | rfl | rfl | rfl
  · rfl
  · rfl
  · rfl
  · exact absurd rfl named

section
variable {s : State} {tbl : BitVec 2}

theorem execHuffBuild_error {d : ErrDetail} (e : buildError tbl s = some d) :
    execHuffBuild tbl s = .next (raise (.huffBuild tbl) d noPos s) := by rw [execHuffBuild, e]

theorem execHuffBuild_built (e : buildError tbl s = none) :
    execHuffBuild tbl s =
      .next (complete
        { s.setTable tbl (s.built tbl s.buildLengths) with
          result := BitVec.ofNat 32 (s.buildLengths.countP (fun l => decide (l ≠ 0))) }) := by rw [execHuffBuild, e]

/-- The window, TBL and HUFF_N are checked before any byte is read. -/
theorem buildError_badArgument (h : s.inOk = false ∨ tbl = 3 ∨ tableCap tbl < s.huffN.toNat) :
    buildError tbl s = some .argInvalid := by
  unfold buildError
  rcases h with wraps | three | large
  · rw [wraps]; rfl
  · rw [if_pos three, ite_self]
  · rw [if_pos large, ite_self, ite_self]

variable (ok : s.inOk = true) (named : tbl ≠ 3) (room : s.huffN.toNat ≤ tableCap tbl)
include ok named room

theorem buildError_srcShort (short : s.inLen.toNat < s.huffN.toNat) : buildError tbl s = some .srcShort := by
  rw [buildError, ok, if_neg (by decide), if_neg named, if_neg (Nat.not_lt.2 room), if_pos short]

theorem buildError_lengths (fits : s.huffN.toNat ≤ s.inLen.toNat) :
    buildError tbl s = if s.buildLengths.any (fun l => decide (15 < l)) then some .argInvalid else none := by
  rw [buildError, ok, if_neg (by decide), if_neg named, if_neg (Nat.not_lt.2 room), if_neg (Nat.not_lt.2 fits)]

end

theorem anyLong_iff {lens : List Nat} : lens.any (fun l => decide (15 < l)) = true ↔ ∃ l ∈ lens, 15 < l := by
  simp only [List.any_eq_true, decide_eq_true_eq]

/-- RESULT has room for the number of nonzero lengths. -/
theorem toNat_nonzeroLengths (s : State) :
    (BitVec.ofNat 32 (s.buildLengths.countP fun l => decide (l ≠ 0))).toNat =
      (s.buildLengths.filter fun l => decide (l ≠ 0)).length := by
  have few : s.buildLengths.countP (fun l => decide (l ≠ 0)) ≤ s.huffN.toNat :=
    List.countP_le_length.trans_eq (by rw [State.buildLengths, List.length_map, List.length_range])
  have := s.huffN.isLt
  rw [BitVec.toNat_ofNat, Nat.mod_eq_of_lt (by omega), List.countP_eq_length_filter]

/-- Settles O41: the checks of `buildError` in their order, and the table written when none fails. -/
theorem huffBuildBuildsTable : Obligations.HuffBuildBuildsTable := by
  intro s tbl n cap lens argFails
  have capacity : tableCap tbl = cap := tableCap_eq tbl
  have lengths : s.buildLengths = lens := rfl
  refine ⟨fun ok named room fits short => ?_, fun bad => ?_, fun ok named room few => ?_, fun ok named room fits long => ?_⟩
  · have none : buildError tbl s = none := by
      refine (buildError_lengths ok named (capacity ▸ room) fits).trans (if_neg (anyLong_iff.not.2 ?_))
      rintro ⟨l, mem, long⟩
      exact Nat.not_le.2 long (short l mem)
    refine ⟨_, execHuffBuild_built none, setTable_table _ _ _, toNat_nonzeroLengths s,
      complete_setTable_frame s named _ _⟩
  · exact execHuffBuild_error (buildError_badArgument (capacity ▸ bad))
  · exact execHuffBuild_error (buildError_srcShort ok named (capacity ▸ room) few)
  · exact execHuffBuild_error ((buildError_lengths ok named (capacity ▸ room) fits).trans (if_pos (anyLong_iff.2 long)))

/-! ## CLEAR and CMD writes (R270, R289) -/

/-- Settles O42: CLEAR is `clearError`, whose writes these are. -/
theorem clearChangesOnlyStatus : Obligations.ClearChangesOnlyStatus := fun _ => rfl

section
variable {s : State} {w : Word}

theorem commandWrite_clear (h : cmdOp w = 0xF) : commandWrite w s = exec .clear s :=
  (if_pos h).trans (by rw [decodeCommand_clear h])

theorem commandWrite_error (h : cmdOp w ≠ 0xF) (error : s.state = .error) : commandWrite w s = .next s :=
  (if_neg h).trans (if_pos error)

theorem commandWrite_accepts (h : cmdOp w ≠ 0xF) (noError : s.state ≠ .error) :
    commandWrite w s = .next (acceptCommand w s) := (if_neg h).trans (if_neg noError)

theorem writeRegister_command (h : s.state ≠ .busy) : writeRegister 0 w s = commandWrite w s :=
  (if_neg h).trans (if_pos rfl)

end

/-- Settles O48: outside BUSY a CMD write is `commandWrite`, which tells CLEAR and ERROR apart from acceptance. -/
theorem commandWrites : Obligations.CommandWrites := by
  intro s w
  refine ⟨fun idle other => ?_, fun notBusy clear => ?_, fun error other => ?_, fun busy => writeRegister_busy busy 0 w⟩
  · have notBusy : s.state ≠ .busy := by rcases idle with e | e <;> rw [e] <;> decide
    have noError : s.state ≠ .error := by rcases idle with e | e <;> rw [e] <;> decide
    exact (writeRegister_command notBusy).trans (commandWrite_accepts other noError)
  · exact (writeRegister_command notBusy).trans (commandWrite_clear clear)
  · exact (writeRegister_command (by rw [error]; decide)).trans (commandWrite_error other error)

end Sys2Proof.Machine
end

section
/-! SUPPORT. What an error keeps: each draw of `drawAfterError` writes registers that the failing command may write (R300, R302,
R306). -/

namespace Sys2Proof.Machine

/-! ## The draws of one table -/

section
variable {tbl : BitVec 2} {s : State}

/-- Drawing a table changes nothing but the tables. -/
theorem drawTbl_only (tbl : BitVec 2) (s : State) :
    drawTbl tbl s = { s with lit := (drawTbl tbl s).lit, dist := (drawTbl tbl s).dist, clen := (drawTbl tbl s).clen } := by
  unfold drawTbl; split <;> rfl

theorem drawTbl_lit (h : tbl ≠ 0) : (drawTbl tbl s).lit = s.lit := by
  unfold drawTbl
  split
  case h_1 zero => exact absurd (BitVec.eq_of_toNat_eq zero) h
  all_goals rfl

theorem drawTbl_dist (h : tbl ≠ 1) : (drawTbl tbl s).dist = s.dist := by
  unfold drawTbl
  split
  case h_2 one => exact absurd (BitVec.eq_of_toNat_eq one) h
  all_goals rfl

theorem drawTbl_clen (h : tbl ≠ 2) : (drawTbl tbl s).clen = s.clen := by
  unfold drawTbl
  split
  case h_3 two => exact absurd (BitVec.eq_of_toNat_eq two) h
  all_goals rfl

end

/-! ## One draw after another -/

theorem drawOut_writesOnlyOut (s : State) : s.writesOnlyOut (drawOut s) := fun a outside =>
  drawBytes_read fun k hk => by
    obtain ⟨inside, noWrap⟩ := lt_min_iff.1 hk
    exact ne_windowAddr_of_outside outside inside (by omega)

section
variable {op : Op} {s t : State}

theorem errorKeeps_refl (op : Op) (s : State) : errorKeeps op s s := by simp [errorKeeps]

theorem errorKeeps_drawCursor (h : op.writesCursor = true) (k : errorKeeps op s t) : errorKeeps op s (drawCursor t) := by
  obtain ⟨registers, -, rest⟩ := k
  exact ⟨registers, fun no => absurd h (Bool.eq_false_iff.1 no), rest⟩

theorem errorKeeps_drawOut (h : op.writesOut = true) (k : errorKeeps op s t) : errorKeeps op s (drawOut t) := by
  obtain ⟨registers, cursor, -, result, lit, dist, clen, sfb, dbd, bytes⟩ := k
  refine ⟨registers, cursor, fun no => absurd h (Bool.eq_false_iff.1 no), result, lit, dist, clen, sfb, dbd, fun a outside => ?_⟩
  obtain ⟨-, -, -, -, -, outBase, outCap, -⟩ := registers
  have outsideOut : t.outsideOut a := by rw [State.outsideOut, outBase, outCap]; exact outside h
  exact (drawOut_writesOnlyOut t a outsideOut).trans (bytes a outside)

theorem errorKeeps_drawResult (h : op.writesResult = true) (k : errorKeeps op s t) : errorKeeps op s (drawResult t) := by
  obtain ⟨registers, cursor, outLen, -, rest⟩ := k
  exact ⟨registers, cursor, outLen, fun no => absurd h (Bool.eq_false_iff.1 no), rest⟩

theorem errorKeeps_drawTbl {tbl : BitVec 2} (h : op.writesTable tbl = true) (k : errorKeeps op s t) :
    errorKeeps op s (drawTbl tbl t) := by
  have other : ∀ {b : BitVec 2}, op.writesTable b = false → tbl ≠ b := fun no e => absurd (e ▸ h) (Bool.eq_false_iff.1 no)
  obtain ⟨registers, cursor, outLen, result, lit, dist, clen, rest⟩ := k
  rw [drawTbl_only]
  exact ⟨registers, cursor, outLen, result, fun no => (drawTbl_lit (other no)).trans (lit no),
    fun no => (drawTbl_dist (other no)).trans (dist no), fun no => (drawTbl_clen (other no)).trans (clen no), rest⟩

theorem errorKeeps_drawSfb (h : op.writesSfb = true) (k : errorKeeps op s t) : errorKeeps op s (drawSfb t) := by
  obtain ⟨registers, cursor, outLen, result, lit, dist, clen, -, rest⟩ := k
  exact ⟨registers, cursor, outLen, result, lit, dist, clen, fun no => absurd h (Bool.eq_false_iff.1 no), rest⟩

theorem errorKeeps_drawDbd (h : op.writesDbd = true) (k : errorKeeps op s t) : errorKeeps op s (drawDbd t) := by
  obtain ⟨registers, cursor, outLen, result, lit, dist, clen, sfb, -, bytes⟩ := k
  exact ⟨registers, cursor, outLen, result, lit, dist, clen, sfb, fun no => absurd h (Bool.eq_false_iff.1 no), bytes⟩

end

/-! ## The error -/

/-- The draws of each command are of what it may write (R291, R306). -/
theorem drawAfterError_errorKeeps (op : Op) (s : State) : errorKeeps op s (drawAfterError op s) := by
  have start := errorKeeps_refl op s
  cases op with
  | inflate =>
    have dbd := errorKeeps_drawDbd rfl (errorKeeps_drawOut rfl (errorKeeps_drawCursor rfl start))
    exact errorKeeps_drawTbl rfl (errorKeeps_drawTbl rfl (errorKeeps_drawTbl rfl dbd))
  | defilter | filter => exact errorKeeps_drawSfb rfl (errorKeeps_drawOut rfl start)
  | crcCheck => exact errorKeeps_drawResult rfl start
  | huffBuild tbl => exact errorKeeps_drawTbl (decide_eq_true rfl) (errorKeeps_drawResult rfl start)
  | huffDecode | bitsRead => exact errorKeeps_drawResult rfl (errorKeeps_drawCursor rfl start)
  | nop | crcReset | crcUpdate | bitsAlign | bitsReset | reserved | clear => exact start

/-- STATUS, the position and DBD.ST, which `raise` writes beside the draws, are none of what an error keeps. -/
theorem raise_errorKeeps (op : Op) (d : ErrDetail) (pos : ErrPos) (s : State) : errorKeeps op s (raise op d pos s) :=
  drawAfterError_errorKeeps op s

/-- Settles O43: the draws write only what the command may write, and a detail has its number and its class. -/
theorem raiseWritesOnlyItsOwn : Obligations.RaiseWritesOnlyItsOwn := by
  refine ⟨fun op d pos s => ⟨rfl, rfl, (detailClass_code d).symm, rfl, rfl, rfl, raise_errorKeeps op d pos s⟩, fun op pos s => ?_⟩
  have number : ∀ d, (raise op d pos s).errDetail = d.code ∧ (raise op d pos s).errClass = d.errClass := fun _ => ⟨rfl, rfl⟩
  exact ⟨number .truncated, number .btypeReserved, number .storedUnsupported, number .lenNlenMismatch, number .huffNoMatch,
    number .litLenSymbolInvalid, number .distSymbolInvalid, number .distTooFar, number .outOverflow, number .repeatNoPrevious,
    number .repeatOverflow, number .countsInvalid, number .filterTypeInvalid, number .srcShort, number .dstShort,
    number .cmdReserved, number .argInvalid⟩

end Sys2Proof.Machine
end

section
/-! SUPPORT. Overlapping copies (R165, R333): the bytes that a copy appends repeat the last `dist` bytes with period `dist`. -/

namespace Sys2Proof.Machine

/-! ## Copied bytes -/

section
variable {dist n : Nat} {l : List Byte}

theorem copyBytes_length : (copyBytes dist n l).length = l.length + n := by
  induction n generalizing l with
  | zero => rfl
  | succ n ih => rw [copyBytes, ih, List.length_append, List.length_singleton]; omega

/-- A copy only appends. -/
theorem exists_copyBytes_eq_append : ∃ copied, copyBytes dist n l = l ++ copied := by
  induction n generalizing l with
  | zero => exact ⟨[], (List.append_nil l).symm⟩
  | succ n ih =>
    obtain ⟨copied, e⟩ := ih
    exact ⟨_, e.trans (List.append_assoc _ _ _)⟩

theorem take_copyBytes : (copyBytes dist n l).take l.length = l := by
  obtain ⟨copied, e⟩ := exists_copyBytes_eq_append
  rw [e, List.take_left]

/-- The bytes from before the copy stay where they are. -/
theorem copyBytes_getD_of_lt {i : Nat} (h : i < l.length) : (copyBytes dist n l).getD i 0 = l.getD i 0 := by
  obtain ⟨copied, e⟩ := exists_copyBytes_eq_append
  rw [e, List.getD_append _ _ _ _ h]

/-- Copied byte `k` is byte `k mod dist` of the last `dist` bytes before the copy: after the first copied byte the last `dist`
bytes are the same ones, turned by one place. -/
theorem copyBytes_getD_copied (pos : 1 ≤ dist) (far : dist ≤ l.length) {k : Nat} (hk : k < n) :
    (copyBytes dist n l).getD (l.length + k) 0 = l.getD (l.length - dist + k % dist) 0 := by
  induction n generalizing l k with
  | zero => exact absurd hk (Nat.not_lt_zero k)
  | succ n ih =>
    rw [copyBytes]
    generalize hb : l.getD (l.length - dist) 0 = b
    have length : (l ++ [b]).length = l.length + 1 := List.length_append
    have last : (l ++ [b]).getD l.length 0 = b := by
      rw [List.getD_append_right _ _ _ _ (Nat.le_refl _), Nat.sub_self, List.getD_cons_zero]
    cases k with
    | zero => rw [Nat.add_zero, copyBytes_getD_of_lt (by omega), last, Nat.zero_mod, Nat.add_zero, hb]
    | succ k =>
      have later := ih (l := l ++ [b]) (k := k) (by omega) (by omega)
      rw [length, Nat.add_right_comm, Nat.add_assoc] at later
      rw [later]
      have below : k % dist + 1 ≤ dist := Nat.mod_lt k pos
      rcases Nat.lt_or_eq_of_le below with within | wraps
      · rw [← Nat.mod_add_mod, Nat.mod_eq_of_lt within, List.getD_append _ _ _ _ (by omega)]
        congr 1
        omega
      · rw [← Nat.mod_add_mod, wraps, Nat.mod_self, show l.length + 1 - dist + k % dist = l.length by omega, last, Nat.add_zero, hb]

/-- Every copied byte is the byte `dist` positions before it (R333). -/
theorem copyBytes_getD_back (pos : 1 ≤ dist) (far : dist ≤ l.length) {k : Nat} (hk : k < n) :
    (copyBytes dist n l).getD (l.length + k) 0 = (copyBytes dist n l).getD (l.length + k - dist) 0 := by
  rw [copyBytes_getD_copied pos far hk]
  rcases Nat.lt_or_ge k dist with first | more
  · rw [Nat.mod_eq_of_lt first, show l.length + k - dist = l.length - dist + k by omega, copyBytes_getD_of_lt (by omega)]
  · rw [Nat.mod_eq_sub_mod more, show l.length + k - dist = l.length + (k - dist) by omega,
      copyBytes_getD_copied pos far (by omega)]

end

/-! ## The match in OUT -/

theorem produced_length (s : State) : s.produced.length = s.outLen.toNat := by
  rw [State.produced, List.length_map, List.length_range]

theorem produced_getD {s : State} {k : Nat} (h : k < s.outLen.toNat) : s.produced.getD k 0 = s.outByte k := by
  rw [State.produced, List.getD_eq_getElem?_getD, List.getElem?_map, List.getElem?_range h]
  rfl

/-- The bytes of OUT after a match are those of the copy. -/
theorem matchCopied.outByte {len dist k : Nat} {s t : State} (h : matchCopied len dist s t) (hk : k < s.outLen.toNat + len) :
    t.outByte k = (copyBytes dist len s.produced).getD k 0 := by
  obtain ⟨outLen, produced, -, -⟩ := h
  rw [← produced, produced_getD (by omega)]

/-- Settles O27: OUT after the match is the copy of what was produced, and a copy repeats its last `dist` bytes. -/
theorem overlappingCopyRepeats : Obligations.OverlappingCopyRepeats := by
  refine ⟨fun s len d e waits hd he far room => ?_, fun dist n l pos far => ?_⟩
  · obtain ⟨copies, -, -⟩ := distanceRule_distInstr hd he s len waits
    obtain ⟨t, ran, copied⟩ := copies far room
    have length := produced_length s
    have pos : 1 ≤ dbase d + e := Nat.le_add_right_of_le (dbase_pos hd)
    have far' : dbase d + e ≤ s.produced.length := length ▸ far
    refine ⟨t, ran, fun k hk => ?_, fun k hk => ⟨?_, ?_⟩⟩
    · rw [copied.outByte (by omega), copyBytes_getD_of_lt (by omega), produced_getD hk]
    · rw [copied.outByte (by omega), copied.outByte (by omega), ← length, copyBytes_getD_back pos far' hk]
    · have below := Nat.mod_lt k pos
      rw [copied.outByte (by omega), ← length, copyBytes_getD_copied pos far' hk, produced_getD (by omega)]
  · exact ⟨take_copyBytes, copyBytes_length, fun _ => copyBytes_getD_copied pos far⟩

end Sys2Proof.Machine
end

section
/-! SUPPORT. The reset move (R320): the state it leaves, and what the host reads right after it (R50, R322). -/

namespace Sys2Proof.Machine

theorem turn_reset {s : State} {ms : List Move} (h : s.moves = .reset :: ms) :
    turn s = .next (resetBlock { s with moves := ms }) := by
  rw [turn, h]; rfl

/-- No register of the map holds anything but its reset value (R322). -/
theorem registerMap_resetBlock (s : State) : (tickOn (resetBlock s)).registerMap = State.reset.registerMap := rfl

theorem regRead_resetBlock (s : State) (i : BitVec 6) :
    (tickOn (resetBlock s)).regRead i = if i = 2 then 1 else 0 := by
  have notBusy : (tickOn (resetBlock s)).state ≠ .busy := RunState.noConfusion
  have reads : ∀ i : BitVec 6, State.reset.registerMap.getD i.toNat 0 = if i = 2 then 1 else 0 := by decide
  rw [regRead_of_not_busy notBusy, regValue_eq_registerMap, registerMap_resetBlock, reads]

/-- Settles O49: the move is `resetBlock`, whose tables are those of no lengths. -/
theorem resetGivesResetState : Obligations.ResetGivesResetState := by
  intro s ms moves
  exact ⟨tickOn (resetBlock { s with moves := ms }), step_eq_next.2 ⟨_, turn_reset moves, rfl⟩, rfl, rfl, rfl,
    regRead_resetBlock { s with moves := ms }⟩

end Sys2Proof.Machine
end
